-- ==== Sys2Proof/Word.lean ====
section
/-!
DEFINITION. Sys2Proof/Word.lean: the word types of the Irievex BV-4400 (R2, R3) and the index types of its physical units (R8, R11).
-/
namespace Sys2Proof

/-- A byte of memory (R3). -/
abbrev Byte := BitVec 8
/-- An instruction word (R2: a word is 32 bits). -/
abbrev Word32 := BitVec 32
/-- A scalar, predicate, special or engine register (R79). -/
abbrev Word := BitVec 64
/-- A vector register, an accumulator row (256 bytes) or a random vector (R81, R87, R266). -/
abbrev VWord := BitVec 2048
/-- A core by its `%core` value: die, field, cluster, core (R11). -/
abbrev CoreId := Fin 512
/-- A hardware context of a core (R8). -/
abbrev CtxId := Fin 4
/-- A compute die (R8). -/
abbrev DieId := Fin 2
/-- A cluster by `%core` bits 8:3 (R184). -/
abbrev ClusterId := Fin 64

/-- The die of a core: bit 8 of its identifier (R11). -/
def CoreId.die (c : CoreId) : DieId := if c.val < 256 then 0 else 1
/-- The cluster of a core: bits 8:3 of its identifier (R11, R184). -/
def CoreId.cluster (c : CoreId) : ClusterId := ⟨c.val / 8, by omega⟩
/-- The field of a core within its die: bits 7:6 (R11). -/
def CoreId.field (c : CoreId) : Fin 4 := ⟨c.val / 64 % 4, by omega⟩
/-- The core of a die with the given `%core` bits 7:0 (R334). -/
def coreOn (d : DieId) (low : Nat) : CoreId := ⟨d.val * 256 + low % 256, by omega⟩

end Sys2Proof
end

