-- ==== Sys2Proof/Config.lean ====
section
/-!
DEFINITION. Sys2Proof/Config.lean: what the spec leaves to the implementation or to chance, as constants without a body.
A free value stands for any value the spec allows: nothing can evaluate it, so a claim holds whatever it is.
-/
namespace Sys2Proof.Config

/-- Any value of `w` bits: what a read of an unsettled destination, of an operand written inside an engine's window or of an
overlapped output returns (R6, R68, R142, R176, R179, R251; assumptions 3, 18, 20). It is applied to the state's `tick` and to a number
that tells the uses within one step apart. -/
opaque freeBits (w tick use : Nat) : BitVec w

/-- A free choice between two behaviours the spec allows (R281: a kept translation is used, or a walk is made; assumption 12). -/
opaque freeChoice (tick use : Nat) : Bool

/-- What one run of a helper routine does (R254, R255, R412): its data accesses, each with address and size, whether it executes an illegal instruction, the
number of its instructions, what it leaves in the output buffer, and a0 as it ends. -/
structure HelperRun where
  accesses : List (Nat × Nat)
  illegal : Bool
  count : Nat
  out : List Byte
  produced : Nat
deriving DecidableEq, Repr, Inhabited

/-- The run of a helper routine, which depends on its start state alone (R254). The RV64GCV instruction set that runs it stands outside the spec (assumption
9). Arguments: routine body, entry offset, input buffer, x-registers, fcsr. -/
opaque helperRun (routine : List Byte) (entry : Nat) (input : List Byte) (regs : Vector Word 32) (fcsr : Word32) : HelperRun

/-- SHA-384 of a byte string (R408, R410, R415; the algorithm stands outside the spec, assumption 10). -/
opaque sha384 (bytes : List Byte) : BitVec 384
/-- Ed25519 verification: public key, message, signature (R410; assumption 10). -/
opaque ed25519Verify (key msg sig : List Byte) : Bool
/-- ML-DSA-65 verification: public key, message, signature (R410; assumption 10). -/
opaque mlDsa65Verify (key msg sig : List Byte) : Bool
/-- Ed25519 signature of a report by the attestation keys of the running management image, named by its measurement (R415). -/
opaque attestEd25519 (measurement : BitVec 384) (msg : List Byte) : BitVec 512
/-- ML-DSA-65 signature of a report (R415). -/
opaque attestMlDsa65 (measurement : BitVec 384) (msg : List Byte) : BitVec 26472
/-- The unwrapping of a wrapped key loaded by KEYLOAD: whether it unwraps (R413; assumption 10). -/
opaque keyUnwraps (wrapped : List Byte) : Bool
/-- The unwrapped key of KEYLOAD (R413; assumption 10). -/
opaque keyUnwrapped (wrapped : List Byte) : BitVec 256
/-- The ciphertext of a packet's payload under AES-256-GCM (R383; assumption 10): key, nonce, the header that is authenticated with it, payload. -/
opaque gcmSeal (key : BitVec 256) (nonce : BitVec 96) (header payload : List Byte) : List Byte
/-- The authentication tag of that packet (R383; assumption 10). -/
opaque gcmTag (key : BitVec 256) (nonce : BitVec 96) (header payload : List Byte) : BitVec 128
/-- The device's ML-KEM-768 public key, 1,184 bytes (R413; assumption 10). -/
opaque mlKemPublic : BitVec 9472
/-- The fused SHA-384 digest of the root public keys (R408). -/
opaque fusedRootDigest : BitVec 384

/-- The firmware image of a kind that bring-up loads: the spec names no store that holds it (R402; assumption 89). -/
opaque bootImage (kind : Nat) : List Byte

/-- Whether package p of this package's group is installed: the group's composition is fixed when the system is built (R185, R377; assumption 8). -/
opaque packagePresent (p : Nat) : Bool

/-- The number of Patante harts of a die: the spec says 'a complex of RISC-V cores' (R8) and gives no number (assumption 16). -/
abbrev hartsPerDie : Nat := 4

end Sys2Proof.Config
end

