-- ==== Sys2Proof/Syntax.lean ====
section
/-!
DEFINITION. Sys2Proof/Syntax.lean: every instruction and every machine event of spec/opcode_table.json as one constructor of `Instr`,
with its operands decoded. Slot words follow R60 (R-form), R61 (M-form) and the field classes of R93, R117, R196; the front-end words follow
R352; the rows without bits are the atomic steps of the machine's agents, with what the outside world supplies as arguments.
-/
namespace Sys2Proof

/-- A scalar register number (R64). -/
abbrev SReg := Fin 64
/-- A predicate register number (R64). -/
abbrev PReg := Fin 24
/-- A vector register number (R64). -/
abbrev VNum := Fin 32
/-- A RISC-V x-register number of a Patante hart (R352). -/
abbrev XReg := Fin 32

/-- The pred and neg fields (R63): pred = 0 with neg = 0, or pred = k + 1. -/
inductive Guard where
  | always
  | on (k : PReg) (neg : Bool)
deriving DecidableEq, Repr

/-- The brim shapes (R66); shape 0b111 is ILLEGAL_OP. -/
inductive Shape where
  | i32 | n32 | w64 | f32w | hi32 | h16x4 | b8x8
deriving DecidableEq, Repr

/-- A brim reference: index and shape (R66). -/
structure Brim where
  idx : Fin 8
  shape : Shape
deriving DecidableEq, Repr

/-- OperandB of a scalar form (R92): a scalar or a brim reference. -/
inductive Src where
  | reg (r : SReg)
  | lit (b : Brim)
deriving DecidableEq, Repr

/-- The second operand of predicate logic (R105). -/
inductive PSrc where
  | reg (r : PReg)
  | lit (b : Brim)
deriving DecidableEq, Repr

/-- A vector source field (R64). -/
inductive VSrc where
  | reg (r : VNum)
  | rnd
  | zero
  | lane
deriving DecidableEq, Repr

/-- A vector second operand (R117): a vector source or a broadcast brim reference. -/
inductive VOp where
  | src (v : VSrc)
  | lit (b : Brim)
deriving DecidableEq, Repr

/-- The special registers in index order (R64). -/
inductive SpecReg where
  | ctx | core | task | dmem | fmtn | tol | rseed | rpos | pts | lease
deriving DecidableEq, Repr

/-- The scopes (R203). -/
inductive Scope where
  | ctx | core | clu | die | pkg | grp
deriving DecidableEq, Repr

/-- The eight format columns of the vector slots (R116). -/
inductive VFmt where
  | f64 | f32 | f16 | bf16 | i32 | n32 | i64 | n64
deriving DecidableEq, Repr

/-- The float columns 0 to 3 (R121, R124). -/
inductive FFmt where
  | f64 | f32 | f16 | bf16
deriving DecidableEq, Repr

/-- The columns of the saturating sums (R123). -/
inductive IFmt where
  | i32 | n32 | i64 | n64
deriving DecidableEq, Repr

/-- The rounding modes of vcvt (R132). -/
inductive RMode where
  | rn | rz | ru | rd
deriving DecidableEq, Repr

/-- The operations of vred (R135). -/
inductive RedOp where
  | sum | min | max | sumS | scan | scanS | sumsq
deriving DecidableEq, Repr

/-- The packed formats of vpack and vunpack (R133). -/
inductive PackFmt where
  | sx3 | sx5 | sx8 | q | q2 | q4 | q8
deriving DecidableEq, Repr

/-- The matrix formats in row order (R73, R144). -/
inductive MFmt where
  | sx3 | sx5 | sx8 | bf16 | f16 | f32 | f64 | q2 | q4 | q8 | q
deriving DecidableEq, Repr

/-- The conversions of mld and mst (R159). -/
inductive MvFmt where
  | raw | bf16 | f16 | sx8 | sx5 | sx3 | f32w | i8
deriving DecidableEq, Repr

/-- The engines of the register commands (R90, R237). -/
inductive Eng where
  | copy | xft | xpose
deriving DecidableEq, Repr

/-- The data of chsend (R262). -/
inductive ChSrc where
  | scalar (r : SReg)
  | vector (v : VSrc)
deriving DecidableEq, Repr

/-- The destination of chrecv (R263). -/
inductive ChDst where
  | scalar (r : SReg)
  | vector (v : VNum)
deriving DecidableEq, Repr

/-- An access that reaches this package through another package's remote window (R185, R380). -/
inductive RemoteOp where
  | load | store (data : Word) | add (x : Word) | min (x : Word) | max (x : Word) | and (x : Word) | or (x : Word) | xor (x : Word)
  | swap (x : Word) | cas (cmp x : Word) | fadd (x : Word)
deriving DecidableEq, Repr

/-- The access, its offset in this package and its size in bytes (1, 2, 4 or 8). -/
structure RemoteReq where
  op : RemoteOp
  off : BitVec 41
  size : Fin 9
deriving DecidableEq, Repr

/-- The prefix of a ring `mcred` that the rank before sends (R390): its operation and formats, and its elements. -/
structure RingPrefix where
  op : BitVec 2
  ifmt : BitVec 5
  afmt : BitVec 5
  sum : VWord
deriving DecidableEq, Repr

/-- A request of a home package for a member's mcred row (R388, R294): group, digest, whether a sealed group's packet authenticates (R383), rank, offset,
row bytes, a ring's prefix and, when the operation is this package's own, its number. -/
structure ContribReq where
  gid : BitVec 32
  digest : Word
  genuine : Bool
  rank : Nat
  off : BitVec 41
  bytes : Nat
  ring : Option RingPrefix
  own : Option Nat
deriving DecidableEq, Repr

/-- A packet of an address group's operation that another package sends to a member of this one (R293, R294, R383, R388, R393, R394): the die whose active
copy it meets, group, digest, whether a sealed group's packet authenticates, the member's rank, the operation's offset and the place within its row, the
bytes, whether it brings an arrival and with the error flag, and the scoreboard and bit that it sets. -/
structure GroupPacket where
  die : DieId
  gid : BitVec 32
  digest : Word
  genuine : Bool
  rank : Nat
  off : Word
  place : Nat
  bytes : List Byte
  arrive : Bool
  err : Bool
  bit : Option (Fin 16 × Fin 4096)
deriving DecidableEq, Repr

/-- Whose delivery reaches a member: the collective `id` of this package, which names the member and its failure beside it, or a packet of another package's
operation, which carries its own member (R388, R393). -/
inductive Delivered where
  | own (id : Nat)
  | other (p : GroupPacket)
deriving DecidableEq, Repr

/-- Whose transpose serves a rank: that of a core of this package, which names command, rank and absence beside it, or a packet of another package's, which
carries its own member (R258, R394). -/
inductive RankServed where
  | own (c : CoreId)
  | other (p : GroupPacket)
deriving DecidableEq, Repr

/-- How a row comes from another package: the code of a failure on the way, 0 for none (R382), and whether a sealed group's packet authenticates (R383). -/
structure RowPassage where
  code : BitVec 8
  genuine : Bool
deriving DecidableEq, Repr

/-- The links whose retrains the visor counts (R328). -/
inductive Link where
  | optical (p : Fin 64) | bridge | host (p : Fin 2)
deriving DecidableEq, Repr

/-- Where the patrol scrub finds an error (R182, R407); `common` is the copy of a line that common memory holds (R191). -/
inductive ScrubAt where
  | mem (pa : BitVec 52)
  | common (pa : BitVec 52)
  | tag (d : DieId) (superblock : Nat)
  | imem (c : CoreId) (w : BitVec 16)
  | mitten (c : CoreId)
  | reg (c : CoreId) (x : CtxId)
  | acc (c : CoreId) (a : Fin 8)
deriving DecidableEq, Repr

/-- The PCI Express AtomicOps (R398). -/
inductive HostAtomic where
  | fetchAdd | swap | cas
deriving DecidableEq, Repr

/-- How a bring-up run goes (R402): the straps, the second tier installed in GiB (R1, R405), the units that trained, and the step that fails, with its code
and unit. -/
structure BootRun where
  m0 : Bool
  m1 : Bool
  lpddr : Bool
  tier : Fin 4097
  portsUp : BitVec 64
  pkg : BitVec 19
  peers : BitVec 64
  fail : Option (Fin 8 × BitVec 8 × BitVec 16)
deriving DecidableEq, Repr

/-- The instructions and machine events of the opcode table: the slot and front-end words first, then the events. -/
inductive Instr where
  /-- add (R94) -/
  | add (g : Guard) (d a : SReg) (b : Src)
  /-- sub (R94) -/
  | sub (g : Guard) (d a : SReg) (b : Src)
  /-- mul (R94) -/
  | mul (g : Guard) (d a : SReg) (b : Src)
  /-- mulh (R95) -/
  | mulh (g : Guard) (d a : SReg) (b : Src)
  /-- mulh.n (R95) -/
  | mulhN (g : Guard) (d a : SReg) (b : Src)
  /-- div (R96) -/
  | div (g : Guard) (d a : SReg) (b : Src)
  /-- div.n (R96) -/
  | divN (g : Guard) (d a : SReg) (b : Src)
  /-- rem (R96) -/
  | rem (g : Guard) (d a : SReg) (b : Src)
  /-- rem.n (R96) -/
  | remN (g : Guard) (d a : SReg) (b : Src)
  /-- and (R94) -/
  | and (g : Guard) (d a : SReg) (b : Src)
  /-- or (R94) -/
  | or (g : Guard) (d a : SReg) (b : Src)
  /-- xor (R94) -/
  | xor (g : Guard) (d a : SReg) (b : Src)
  /-- andn (R94) -/
  | andn (g : Guard) (d a : SReg) (b : Src)
  /-- shl (R97) -/
  | shl (g : Guard) (d a : SReg) (b : Src)
  /-- shr (R97) -/
  | shr (g : Guard) (d a : SReg) (b : Src)
  /-- sra (R97) -/
  | sra (g : Guard) (d a : SReg) (b : Src)
  /-- rol (R97) -/
  | rol (g : Guard) (d a : SReg) (b : Src)
  /-- ror (R97) -/
  | ror (g : Guard) (d a : SReg) (b : Src)
  /-- clz (R100) -/
  | clz (g : Guard) (d : SReg) (b : Src)
  /-- ctz (R100) -/
  | ctz (g : Guard) (d : SReg) (b : Src)
  /-- popc (R100) -/
  | popc (g : Guard) (d : SReg) (b : Src)
  /-- min (R94) -/
  | min (g : Guard) (d a : SReg) (b : Src)
  /-- max (R94) -/
  | max (g : Guard) (d a : SReg) (b : Src)
  /-- min.n (R94) -/
  | minN (g : Guard) (d a : SReg) (b : Src)
  /-- max.n (R94) -/
  | maxN (g : Guard) (d a : SReg) (b : Src)
  /-- sext.8 (R100) -/
  | sext8 (g : Guard) (d : SReg) (b : Src)
  /-- sext.16 (R100) -/
  | sext16 (g : Guard) (d : SReg) (b : Src)
  /-- sext.32 (R100) -/
  | sext32 (g : Guard) (d : SReg) (b : Src)
  /-- zext.8 (R100) -/
  | zext8 (g : Guard) (d : SReg) (b : Src)
  /-- zext.16 (R100) -/
  | zext16 (g : Guard) (d : SReg) (b : Src)
  /-- zext.32 (R100) -/
  | zext32 (g : Guard) (d : SReg) (b : Src)
  /-- bfx (R102) -/
  | bfx (g : Guard) (d a : SReg) (b : Src)
  /-- bfx.n (R102) -/
  | bfxN (g : Guard) (d a : SReg) (b : Src)
  /-- bfi (R102) -/
  | bfi (g : Guard) (d a : SReg) (b : Src)
  /-- sel (R103) -/
  | sel (g : Guard) (d a : SReg) (b : Src)
  /-- lea.1 (R99) -/
  | lea1 (g : Guard) (d a : SReg) (b : Src)
  /-- lea.2 (R99) -/
  | lea2 (g : Guard) (d a : SReg) (b : Src)
  /-- lea.4 (R99) -/
  | lea4 (g : Guard) (d a : SReg) (b : Src)
  /-- lea.8 (R99) -/
  | lea8 (g : Guard) (d a : SReg) (b : Src)
  /-- add.s (R98) -/
  | addS (g : Guard) (d a : SReg) (b : Src)
  /-- sub.s (R98) -/
  | subS (g : Guard) (d a : SReg) (b : Src)
  /-- add.s.n (R98) -/
  | addSN (g : Guard) (d a : SReg) (b : Src)
  /-- sub.s.n (R98) -/
  | subSN (g : Guard) (d a : SReg) (b : Src)
  /-- cmp.eq (R104) -/
  | cmpEq (g : Guard) (d : PReg) (a : SReg) (b : Src)
  /-- cmp.ne (R104) -/
  | cmpNe (g : Guard) (d : PReg) (a : SReg) (b : Src)
  /-- cmp.lt (R104) -/
  | cmpLt (g : Guard) (d : PReg) (a : SReg) (b : Src)
  /-- cmp.le (R104) -/
  | cmpLe (g : Guard) (d : PReg) (a : SReg) (b : Src)
  /-- cmp.lt.n (R104) -/
  | cmpLtN (g : Guard) (d : PReg) (a : SReg) (b : Src)
  /-- cmp.le.n (R104) -/
  | cmpLeN (g : Guard) (d : PReg) (a : SReg) (b : Src)
  /-- pand (R105) -/
  | pand (g : Guard) (d a : PReg) (b : PSrc)
  /-- por (R105) -/
  | por (g : Guard) (d a : PReg) (b : PSrc)
  /-- pxor (R105) -/
  | pxor (g : Guard) (d a : PReg) (b : PSrc)
  /-- pandn (R105) -/
  | pandn (g : Guard) (d a : PReg) (b : PSrc)
  /-- pfrom (R106) -/
  | pfrom (g : Guard) (d : PReg) (b : Src)
  /-- pto (R106) -/
  | pto (g : Guard) (d : SReg) (a : PReg)
  /-- mov (R100) -/
  | mov (g : Guard) (d : SReg) (b : Src)
  /-- li (R101) -/
  | liImm (g : Guard) (d : SReg) (imm : BitVec 12)
  /-- li (R101) -/
  | liBrim (g : Guard) (d : SReg) (b : Brim)
  /-- rdsp (R85) -/
  | rdsp (g : Guard) (d : SReg) (x : SpecReg)
  /-- wrsp (R86) -/
  | wrsp (g : Guard) (x : SpecReg) (b : Src)
  /-- br (R108) -/
  | br (g : Guard) (off : BitVec 18)
  /-- brc.nz (R109) -/
  | brcNzOffset (g : Guard) (a : SReg) (off : BitVec 12)
  /-- brc.nz (R109) -/
  | brcNzAbs (g : Guard) (a : SReg) (b : Brim)
  /-- brc.z (R109) -/
  | brcZOffset (g : Guard) (a : SReg) (off : BitVec 12)
  /-- brc.z (R109) -/
  | brcZAbs (g : Guard) (a : SReg) (b : Brim)
  /-- jr (R110) -/
  | jr (g : Guard) (a : SReg)
  /-- call (R108) -/
  | call (g : Guard) (off : BitVec 18)
  /-- ret (R110) -/
  | ret (g : Guard)
  /-- loop (R111) -/
  | loop (g : Guard) (off : BitVec 12) (b : Src)
  /-- loop (R111) -/
  | loopClear (g : Guard)
  /-- done (R113) -/
  | done (g : Guard)
  /-- trig (R114) -/
  | trig (g : Guard)
  /-- trap (R115) -/
  | trap (g : Guard) (code : BitVec 18)
  /-- sys (R115) -/
  | sys (g : Guard) (code : BitVec 18)
  /-- ld.i8 (R198) -/
  | ldI8 (g : Guard) (d a : SReg) (b : Src)
  /-- ld.n8 (R198) -/
  | ldN8 (g : Guard) (d a : SReg) (b : Src)
  /-- ld.i16 (R198) -/
  | ldI16 (g : Guard) (d a : SReg) (b : Src)
  /-- ld.n16 (R198) -/
  | ldN16 (g : Guard) (d a : SReg) (b : Src)
  /-- ld.i32 (R198) -/
  | ldI32 (g : Guard) (d a : SReg) (b : Src)
  /-- ld.n32 (R198) -/
  | ldN32 (g : Guard) (d a : SReg) (b : Src)
  /-- ld.64 (R198) -/
  | ld64 (g : Guard) (d a : SReg) (b : Src)
  /-- st.8 (R198) -/
  | st8 (g : Guard) (d a : SReg) (b : Src)
  /-- st.16 (R198) -/
  | st16 (g : Guard) (d a : SReg) (b : Src)
  /-- st.32 (R198) -/
  | st32 (g : Guard) (d a : SReg) (b : Src)
  /-- st.64 (R198) -/
  | st64 (g : Guard) (d a : SReg) (b : Src)
  /-- ldv (R199) -/
  | ldv (g : Guard) (d : VNum) (a : SReg) (b : Src)
  /-- stv (R199) -/
  | stv (g : Guard) (d : VNum) (a : SReg) (b : Src)
  /-- ldg (R200) -/
  | ldg (g : Guard) (d : VNum) (a : SReg) (b : VSrc)
  /-- stg (R200) -/
  | stg (g : Guard) (d : VNum) (a : SReg) (b : VSrc)
  /-- scld (R201) -/
  | scld (g : Guard) (d : Fin 8) (a : SReg) (b : Src)
  /-- ldx.i8 (R202) -/
  | ldxI8 (g : Guard) (d a : SReg) (b : Src)
  /-- ldx.n8 (R202) -/
  | ldxN8 (g : Guard) (d a : SReg) (b : Src)
  /-- ldx.i16 (R202) -/
  | ldxI16 (g : Guard) (d a : SReg) (b : Src)
  /-- ldx.n16 (R202) -/
  | ldxN16 (g : Guard) (d a : SReg) (b : Src)
  /-- ldx.i32 (R202) -/
  | ldxI32 (g : Guard) (d a : SReg) (b : Src)
  /-- ldx.n32 (R202) -/
  | ldxN32 (g : Guard) (d a : SReg) (b : Src)
  /-- ldx.64 (R202) -/
  | ldx64 (g : Guard) (d a : SReg) (b : Src)
  /-- stx.8 (R202) -/
  | stx8 (g : Guard) (d a : SReg) (b : Src)
  /-- stx.16 (R202) -/
  | stx16 (g : Guard) (d a : SReg) (b : Src)
  /-- stx.32 (R202) -/
  | stx32 (g : Guard) (d a : SReg) (b : Src)
  /-- stx.64 (R202) -/
  | stx64 (g : Guard) (d a : SReg) (b : Src)
  /-- ldx.acq.32 (R203) -/
  | ldxAcq32 (g : Guard) (d a : SReg) (sc : Scope)
  /-- ldx.acq.64 (R203) -/
  | ldxAcq64 (g : Guard) (d a : SReg) (sc : Scope)
  /-- stx.rel.32 (R203) -/
  | stxRel32 (g : Guard) (d a : SReg) (sc : Scope)
  /-- stx.rel.64 (R203) -/
  | stxRel64 (g : Guard) (d a : SReg) (sc : Scope)
  /-- amo.add.32 (R208) -/
  | amoAdd32 (g : Guard) (d a : SReg) (b : Src)
  /-- amo.add.64 (R208) -/
  | amoAdd64 (g : Guard) (d a : SReg) (b : Src)
  /-- amo.min.32 (R208) -/
  | amoMin32 (g : Guard) (d a : SReg) (b : Src)
  /-- amo.min.64 (R208) -/
  | amoMin64 (g : Guard) (d a : SReg) (b : Src)
  /-- amo.max.32 (R208) -/
  | amoMax32 (g : Guard) (d a : SReg) (b : Src)
  /-- amo.max.64 (R208) -/
  | amoMax64 (g : Guard) (d a : SReg) (b : Src)
  /-- amo.and.64 (R208) -/
  | amoAnd64 (g : Guard) (d a : SReg) (b : Src)
  /-- amo.or.64 (R208) -/
  | amoOr64 (g : Guard) (d a : SReg) (b : Src)
  /-- amo.xor.64 (R208) -/
  | amoXor64 (g : Guard) (d a : SReg) (b : Src)
  /-- amo.swap.32 (R208) -/
  | amoSwap32 (g : Guard) (d a : SReg) (b : Src)
  /-- amo.swap.64 (R208) -/
  | amoSwap64 (g : Guard) (d a : SReg) (b : Src)
  /-- amo.cas.64 (R208) -/
  | amoCas64 (g : Guard) (d a : SReg) (b : Src)
  /-- amo.fadd.f32 (R208) -/
  | amoFaddF32 (g : Guard) (d a : SReg) (b : Src)
  /-- amo.fadd.f64 (R208) -/
  | amoFaddF64 (g : Guard) (d a : SReg) (b : Src)
  /-- nbop.add.f32 (R209) -/
  | nbopAddF32 (g : Guard) (d : VNum) (a : SReg) (b : Src)
  /-- nbop.add.f64 (R209) -/
  | nbopAddF64 (g : Guard) (d : VNum) (a : SReg) (b : Src)
  /-- nbop.add.i32 (R209) -/
  | nbopAddI32 (g : Guard) (d : VNum) (a : SReg) (b : Src)
  /-- nbop.add.i64 (R209) -/
  | nbopAddI64 (g : Guard) (d : VNum) (a : SReg) (b : Src)
  /-- nbop.max.f32 (R209) -/
  | nbopMaxF32 (g : Guard) (d : VNum) (a : SReg) (b : Src)
  /-- nbop.min.f32 (R209) -/
  | nbopMinF32 (g : Guard) (d : VNum) (a : SReg) (b : Src)
  /-- nbop.scale.f32 (R209) -/
  | nbopScaleF32 (g : Guard) (d : VNum) (a : SReg) (b : Src)
  /-- nbop.scale.f64 (R209) -/
  | nbopScaleF64 (g : Guard) (d : VNum) (a : SReg) (b : Src)
  /-- fence (R224) -/
  | fence (g : Guard) (sc : Scope)
  /-- xfence (R225) -/
  | xfence (g : Guard) (p q : BitVec 6)
  /-- fence.io (R226) -/
  | fenceIo (g : Guard)
  /-- vadd (R120) -/
  | vadd (g : Guard) (f : VFmt) (d : VNum) (a : VSrc) (b : VOp)
  /-- vsub (R120) -/
  | vsub (g : Guard) (f : VFmt) (d : VNum) (a : VSrc) (b : VOp)
  /-- vmul (R120) -/
  | vmul (g : Guard) (f : VFmt) (d : VNum) (a : VSrc) (b : VOp)
  /-- vfma (R121) -/
  | vfma (g : Guard) (f : FFmt) (d : VNum) (a : VSrc) (b : VOp)
  /-- vcmul.c64 (R125) -/
  | vcmulC64 (g : Guard) (d : VNum) (a b : VSrc)
  /-- vcmul.c32 (R125) -/
  | vcmulC32 (g : Guard) (d : VNum) (a : VSrc) (b : VOp)
  /-- vlrec (R126) -/
  | vlrec (g : Guard) (single : Bool) (d a b : VNum)
  /-- vmin (R122) -/
  | vmin (g : Guard) (f : VFmt) (d : VNum) (a : VSrc) (b : VOp)
  /-- vmax (R122) -/
  | vmax (g : Guard) (f : VFmt) (d : VNum) (a : VSrc) (b : VOp)
  /-- vadd.s (R123) -/
  | vaddS (g : Guard) (f : IFmt) (d : VNum) (a : VSrc) (b : VOp)
  /-- vsub.s (R123) -/
  | vsubS (g : Guard) (f : IFmt) (d : VNum) (a : VSrc) (b : VOp)
  /-- vcmp.eq (R124) -/
  | vcmpEq (g : Guard) (f : VFmt) (d : PReg) (a : VSrc) (b : VOp)
  /-- vcmp.lt (R124) -/
  | vcmpLt (g : Guard) (f : VFmt) (d : PReg) (a : VSrc) (b : VOp)
  /-- vcmp.le (R124) -/
  | vcmpLe (g : Guard) (f : FFmt) (d : PReg) (a : VSrc) (b : VOp)
  /-- vcvt (R132) -/
  | vcvt (g : Guard) (r : RMode) (d : VNum) (a : VSrc) (src dst : VFmt)
  /-- vand (R127) -/
  | vand (g : Guard) (d : VNum) (a : VSrc) (b : VOp)
  /-- vor (R127) -/
  | vor (g : Guard) (d : VNum) (a : VSrc) (b : VOp)
  /-- vxor (R127) -/
  | vxor (g : Guard) (d : VNum) (a : VSrc) (b : VOp)
  /-- vandn (R127) -/
  | vandn (g : Guard) (d : VNum) (a : VSrc) (b : VOp)
  /-- vsel (R129) -/
  | vsel (g : Guard) (d : VNum) (a : VSrc) (b : VOp)
  /-- vshuf (R130) -/
  | vshuf (g : Guard) (d : VNum) (a : VSrc) (b : VOp)
  /-- vbcast (R131) -/
  | vbcast (g : Guard) (wide : Bool) (d : VNum) (a : SReg)
  /-- vred (R135) -/
  | vred (g : Guard) (d : VNum) (a : VSrc) (src : VFmt) (op : RedOp)
  /-- vshl (R128) -/
  | vshl (g : Guard) (wide : Bool) (d : VNum) (a : VSrc) (b : VOp)
  /-- vshr (R128) -/
  | vshr (g : Guard) (wide : Bool) (d : VNum) (a : VSrc) (b : VOp)
  /-- vsra (R128) -/
  | vsra (g : Guard) (wide : Bool) (d : VNum) (a : VSrc) (b : VOp)
  /-- vpack (R133) -/
  | vpack (g : Guard) (d : VNum) (a : VSrc) (src : VFmt) (t : PackFmt)
  /-- vunpack (R134) -/
  | vunpack (g : Guard) (d : VNum) (a : VSrc) (dst : VFmt) (t : PackFmt)
  /-- vrcp (R136) -/
  | vrcp (g : Guard) (wide : Bool) (d : VNum) (a : VSrc)
  /-- vrsqrt (R136) -/
  | vrsqrt (g : Guard) (wide : Bool) (d : VNum) (a : VSrc)
  /-- vexp2 (R136) -/
  | vexp2 (g : Guard) (wide : Bool) (d : VNum) (a : VSrc)
  /-- vlog2 (R136) -/
  | vlog2 (g : Guard) (wide : Bool) (d : VNum) (a : VSrc)
  /-- vsincos (R137) -/
  | vsincos (g : Guard) (wide : Bool) (d : VNum) (a : VSrc)
  /-- vtanh (R136) -/
  | vtanh (g : Guard) (wide : Bool) (d : VNum) (a : VSrc)
  /-- bnet (R138) -/
  | bnet (g : Guard) (c : Fin 8) (d a : SReg) (b : Src)
  /-- mma (R145) -/
  | mma (g : Guard) (f : MFmt) (acc : Fin 8) (a : SReg) (b : Src) (sc z : Bool)
  /-- mma.h (R148) -/
  | mmaH (g : Guard) (f : MFmt) (acc : Fin 8) (a : SReg) (b : Src) (sc z : Bool)
  /-- mma.sd (R154) -/
  | mmaSd (g : Guard) (half : Bool) (acc : Fin 8) (a : SReg) (b : Src) (z : Bool)
  /-- sdscan (R156) -/
  | sdscan (g : Guard) (acc : Fin 8) (a b : SReg) (half : Bool)
  /-- sdgen (R155) -/
  | sdgen (g : Guard) (acc : Fin 8) (a : SReg) (b : Src) (basis : Bool)
  /-- mzero (R158) -/
  | mzero (g : Guard) (acc : Fin 8)
  /-- mld (R159) -/
  | mld (g : Guard) (acc : Fin 8) (a : SReg) (f : MvFmt)
  /-- mst (R159) -/
  | mst (g : Guard) (acc : Fin 8) (a : SReg) (f : MvFmt)
  /-- xft.go (R167) -/
  | xftGo (g : Guard) (i : Option SReg) (o : Option Src)
  /-- cpy (R244) -/
  | cpy (g : Guard) (d a : SReg) (b : Src)
  /-- cpyh (R253) -/
  | cpyh (g : Guard) (d a : SReg) (b : Src)
  /-- xpose (R257) -/
  | xpose (g : Guard)
  /-- ewr (R238) -/
  | ewr (g : Guard) (e : Eng) (w : Fin 16) (b : Src)
  /-- ewr.blk (R238) -/
  | ewrBlk (g : Guard) (e : Eng) (w : Fin 16) (a : SReg) (b : Src)
  /-- ego (R239) -/
  | ego (g : Guard) (e : Eng)
  /-- erd (R240) -/
  | erd (g : Guard) (d : SReg) (e : Eng) (w : Fin 16) (shadow : Bool)
  /-- tbinit (R310) -/
  | tbinit (g : Guard) (a : SReg) (b : Src)
  /-- tbexpect (R311) -/
  | tbexpect (g : Guard) (a : SReg) (b : Src)
  /-- tbarrive (R312) -/
  | tbarrive (g : Guard) (a : SReg) (b : Src)
  /-- tbarrive.g (R312) -/
  | tbarriveG (g : Guard) (a : SReg) (b : Src)
  /-- tbwait (R313) -/
  | tbwait (g : Guard) (a : SReg) (b : Src)
  /-- tbtest (R314) -/
  | tbtest (g : Guard) (d a : SReg)
  /-- sbset (R318) -/
  | sbset (g : Guard) (b : Src)
  /-- sbarm (R319) -/
  | sbarm (g : Guard) (a : SReg) (b : Src)
  /-- dbar (R322) -/
  | dbar (g : Guard) (b : Src)
  /-- chsend (R262) -/
  | chsend (g : Guard) (x : ChSrc) (b : Src)
  /-- chrecv (R263) -/
  | chrecv (g : Guard) (x : ChDst) (b : Src)
  /-- chtest (R264) -/
  | chtest (g : Guard) (d : SReg) (b : Src)
  /-- grd.check (R350) -/
  | grdCheck (g : Guard) (b : Src)
  /-- fmtset (R270) -/
  | fmtset (g : Guard) (b : Src)
  /-- rsave (R268) -/
  | rsave (g : Guard) (a : SReg) (b : Src)
  /-- rload (R269) -/
  | rload (g : Guard) (a : SReg) (b : Src)
  /-- mcred (R388) -/
  | mcred (g : Guard) (d : VNum) (a : SReg) (b : Src)
  /-- mcst (R393) -/
  | mcst (g : Guard) (d : VSrc) (a : SReg) (b : Src)
  /-- bnload (R299) -/
  | bnload (g : Guard) (c : Fin 8) (a : SReg) (b : Src)
  /-- sig (R347) -/
  | sig (g : Guard) (a : SReg) (b : Src)
  /-- sig.max (R347) -/
  | sigMax (g : Guard) (a : SReg) (b : Src)
  /-- wsig (R347) -/
  | wsig (g : Guard) (a : SReg) (b : Src)
  /-- qfetch (R352) -/
  | qfetch (rd rs1 : XReg)
  /-- qfetch.adv (R352) -/
  | qfetchAdv (rd rs1 : XReg)
  /-- bfext (R352) -/
  | bfext (rd rs1 rs2 : XReg)
  /-- sigwait (R352) -/
  | sigwait (rd rs1 rs2 : XReg)
  /-- dispatch (R352) -/
  | dispatch (rd rs1 rs2 : XReg)
  /-- BUNDLE_ISSUE (R67) -/
  | bundleIssue (c : CoreId)
  /-- MATRIX_OP_COMPLETE (R143) -/
  | matrixOpComplete (c : CoreId)
  /-- CONTEXT_FREE (R17) -/
  | contextFree (c : CoreId) (x : CtxId)
  /-- PTS_TICK (R217) -/
  | ptsTick (c : CoreId) (x : CtxId)
  /-- RANDOM_REFILL (R267) -/
  | randomRefill (c : CoreId)
  /-- LOOKAHEAD_STAGING (R149) -/
  | lookaheadStaging (c : CoreId) (w : BitVec 16)
  /-- STAGING_COMPLETE (R149) -/
  | stagingComplete (c : CoreId) (b : Fin 8)
  /-- HOME_BANK_ACCESS (R216) -/
  | homeBankAccess (c : CoreId) (k : Nat) (copy : Bool) (evict : Option Nat)
  /-- GLOBAL_REPLY (R202) -/
  | globalReply (c : CoreId) (k : Nat) (v : Word) (err : Bool)
  /-- STORE_ACK (R220) -/
  | storeAck (c : CoreId) (k : Nat)
  /-- GUARD_COMMIT_COMPLETE (R231) -/
  | guardCommitComplete (c : CoreId) (x : CtxId)
  /-- COPY_SECTOR_PERFORMED (R246) -/
  | copySectorPerformed (c : CoreId) (tag : BitVec 32)
  /-- HELPER_ROW_END (R254) -/
  | helperRowEnd (c : CoreId) (tag : BitVec 32)
  /-- XPOSE_RANK_SERVED (R258) -/
  | xposeRankServed (x : RankServed) (tag : BitVec 32) (q : Nat) (gone : BitVec 8)
  /-- XPOSE_SEND_COMPLETE (R258) -/
  | xposeSendComplete (c : CoreId) (tag : BitVec 32)
  /-- XFT_TRANSFORM_DONE (R175) -/
  | xftTransformDone (c : CoreId)
  /-- XFT_COMPLETE (R178) -/
  | xftComplete (c : CoreId)
  /-- CHANNEL_DELIVERY (R262) -/
  | channelDelivery (d : DieId) (l : Nat) (ch : BitVec 10)
  /-- CHANNEL_CREDIT_RETURN (R262) -/
  | channelCreditReturn (d : DieId) (l : Nat) (ch : BitVec 10)
  /-- BARRIER_UPDATE (R306) -/
  | barrierUpdate (k : Nat)
  /-- DOMAIN_BARRIER_COMPLETE (R322) -/
  | domainBarrierComplete (d : DieId) (l : Nat) (lev : Fin 8) (idx : Nat)
  /-- PLACEMENT_DECISION (R338) -/
  | placementDecision (d : DieId) (pick : Nat)
  /-- BATCH_RELEASE (R32) -/
  | batchRelease (d : DieId)
  /-- QUEUE_FETCH (R332) -/
  | queueFetch (d : DieId) (q : Fin 64)
  /-- NODE_START (R344) -/
  | nodeStart (d : DieId) (gr : Nat) (n : Nat)
  /-- SAVE (R369) -/
  | save (c : CoreId)
  /-- SAVE_COMPLETE (R369) -/
  | saveComplete (c : CoreId)
  /-- INVALIDATION_COMPLETE (R282) -/
  | invalidationComplete (d : DieId)
  /-- DEACTIVATE_COMPLETE (R295) -/
  | deactivateComplete (d : DieId)
  /-- PAGE_WALK (R278) -/
  | pageWalk (d : DieId) (asid : BitVec 14) (va : BitVec 55)
  /-- ROUTER_CONTRIBUTION (R296) -/
  | routerContribution (id rank : Nat) (row : VWord) (gone : RowPassage)
  /-- MEMBER_DELIVERY (R388) -/
  | memberDelivery (x : Delivered) (q : Nat) (gone : BitVec 8)
  /-- MCST_DELIVERY (R393) -/
  | mcstDelivery (x : Delivered) (q : Nat) (gone : BitVec 8)
  /-- RESULT_LANDING (R68) -/
  | resultLanding (c : CoreId) (k : Nat)
  /-- GAUNTLET_TIMEOUT (R355) -/
  | gauntletTimeout (c : CoreId)
  /-- HANDLER_TIMEOUT (R364) -/
  | handlerTimeout (c : CoreId)
  /-- FORCED_SWITCH_TIMEOUT (R368) -/
  | forcedSwitchTimeout (c : CoreId)
  /-- AGING_INTERVAL (R338) -/
  | agingInterval (d : DieId) (q : Fin 64)
  /-- REMOTE_ACCESS_ARRIVAL (R380) -/
  | remoteAccessArrival (r : RemoteReq)
  /-- NEGATIVE_REPLY (R380) -/
  | negativeReply (c : CoreId) (k : Nat)
  /-- ROUTE_TIMEOUT (R380) -/
  | routeTimeout (c : CoreId) (k : Nat)
  /-- REPLY_TIMEOUT (R380) -/
  | replyTimeout (c : CoreId) (k : Nat)
  /-- LINK_RETRAIN (R378) -/
  | linkRetrain (l : Link)
  /-- OPTICAL_LINK_CHANGE (R379) -/
  | opticalLinkChange (p : Fin 64) (up : Bool)
  /-- HOST_LINK_CHANGE (R400) -/
  | hostLinkChange (p : Fin 2) (width rate : Fin 4)
  /-- HOT_RESET (R401) -/
  | hotReset (p : Fin 2)
  /-- RESET_PIN (R401) -/
  | resetPin
  /-- POWER_GOOD (R402) -/
  | powerGood (b : BootRun)
  /-- POWER_DOWN (R329) -/
  | powerDown
  /-- CURRENT_WINDOW (R326) -/
  | currentWindow (d : DieId) (f : Fin 4) (avg : BitVec 16)
  /-- VISOR_SAMPLE (R328) -/
  | visorSample (ft hs : List Nat)
  /-- VISOR_FLUSH (R329) -/
  | visorFlush
  /-- PATROL_SCRUB (R407) -/
  | patrolScrub (at_ : ScrubAt) (bad : Bool)
  /-- INBOUND_WRITE (R398) -/
  | inboundWrite (p : Fin 2) (off : Nat) (bytes : List Byte) (poison : Bool)
  /-- INBOUND_READ (R398) -/
  | inboundRead (p : Fin 2) (off len : Nat)
  /-- INBOUND_ATOMICOP (R398) -/
  | inboundAtomicop (p : Fin 2) (op : HostAtomic) (wide : Bool) (off : Nat) (x y : Word)
  /-- SPDM_MEASUREMENT (R415) -/
  | spdmMeasurement (nonce : BitVec 256)
  /-- ENQUEUE (R332) -/
  | enqueue (d : DieId) (q : Fin 64) (tail : BitVec 32)
  /-- QUEUE_RESUME (R333) -/
  | queueResume (d : DieId) (q : Fin 64)
  /-- INVALIDATION (R282) -/
  | invalidation (d : DieId) (all glob : Bool) (asid : BitVec 14)
  /-- ACTIVATE (R294) -/
  | activate (d : DieId) (i : BitVec 10)
  /-- DEACTIVATE (R295) -/
  | deactivate (d : DieId) (i : BitVec 10)
  /-- PEAK_RESET (R325) -/
  | peakReset (d : DieId) (f : Fin 4)
  /-- KREQ_LIVE (R355) -/
  | kreqLive (d : DieId) (core : BitVec 8) (x : CtxId) (grp : Bool)
  /-- KREQ_IMAGE (R355) -/
  | kreqImage (d : DieId) (core : BitVec 8) (x : CtxId) (grp : Bool) (area : BitVec 36)
  /-- PCTL_REQ (R366) -/
  | pctlReq (c : CoreId) (area : BitVec 52)
  /-- PCTL_FORCE (R368) -/
  | pctlForce (c : CoreId) (area : BitVec 52)
  /-- RESUME (R360) -/
  | resume (c : CoreId)
  /-- ADVANCE (R360) -/
  | advance (c : CoreId)
  /-- KILL (R360) -/
  | kill (c : CoreId) (kcode : BitVec 8)
  /-- SWITCH (R360) -/
  | switch (c : CoreId)
  /-- REPLAY (R363) -/
  | replay (c : CoreId) (tag : BitVec 32)
  /-- ABANDON (R363) -/
  | abandon (c : CoreId) (tag : BitVec 32)
  /-- TQHEAD_WRITE (R358) -/
  | tqheadWrite (cl : ClusterId) (v : Word)
  /-- WINDOW_WRITE (R359) -/
  | windowWrite (c : CoreId) (off : BitVec 24) (v : Word)
  /-- VISOR (R414) -/
  | visor
  /-- ATTEST (R415) -/
  | attest
  /-- STAGE (R414) -/
  | stage
  /-- COMMIT (R416) -/
  | commit
  /-- HANDLER_COMMIT_POINT (R416) -/
  | handlerCommitPoint
  /-- ROUTINE (R412) -/
  | routine
  /-- KEYLOAD (R413) -/
  | keyload
  /-- KEYCLEAR (R413) -/
  | keyclear
  /-- KEYEXCH (R413) -/
  | keyexch
  /-- RESET (R414) -/
  | reset
  /-- MAILBOX_OTHER (R414) -/
  | mailboxOther (cmd : BitVec 8)
  /-- REGISTER_WRITE (R4) -/
  | registerWrite (d : DieId) (off : BitVec 24) (v : Word)
  /-- SUPPLY_DROOP (R328) -/
  | supplyDroop (d : DieId) (f : Fin 4) (mv : Nat)
  /-- POWER_LOSS (R329) -/
  | powerLoss
  /-- HELPER_FAULT (R255) -/
  | helperFault (c : CoreId) (tag : BitVec 32)
  /-- CONTRIBUTION_READ (R388) -/
  | contributionRead (d : DieId) (r : ContribReq)
deriving DecidableEq, Repr

end Sys2Proof
end

