-- ==== Sys2Proof/Machine/State.lean ====
section
/-!
DEFINITION. Sys2Proof/Machine/State.lean: everything the spec gives the machine, as plain data, and the state after reset.
Every structure names the rule of spec/ that gives its fields; the reset values the spec does not state are those of assumption 2.
-/
namespace Sys2Proof.Machine

/-! ### Contexts -/

/-- Context states (R17). -/
inductive CtxState where
  | free | placed | ready | running | blocked | saved | retired
deriving DecidableEq, Repr

/-- Status of a retired task (R17). -/
inductive RetStatus where
  | done | killed | discarded
deriving DecidableEq, Repr

/-- What a context is blocked on (R18): a barrier at a phase, an empty or a full channel, a domain barrier, the task's own transfers (R29), a full copy
queue, or the shadow set of an engine. -/
inductive BlockOn where
  | tbwait (addr : Nat) (k : BitVec 4)
  | chanEmpty (ch : Nat)
  | chanFull (ch : Nat)
  | dbar
  | transfers
  | copyFull
  | shadow (e : Eng)
deriving DecidableEq, Repr

/-- Loop state (R83). -/
structure LoopState where
  endw : BitVec 16
  startw : BitVec 16
  count : BitVec 32
deriving DecidableEq, Repr

/-- How the PC was reached by a control transfer (R59, R107): the transferring bundle and the computed target. -/
structure Via where
  src : BitVec 18
  target : Word
  /-- The register that gave the target was settled (R110). -/
  settled : Bool
deriving DecidableEq, Repr

/-- A pending `fmtset` value and the committed bundles still to come before it governs (R43, R270). -/
structure FmtPend where
  val : BitVec 5
  left : Nat
deriving DecidableEq, Repr

/-- The pending record of a `dbar` (R322). -/
structure DbarPend where
  level : Fin 8
  gen : BitVec 16
deriving DecidableEq, Repr

/-- The replay record of a bundle saved after a trap (R369, R371). -/
structure ReplayRec where
  words : List Word32
  smask : BitVec 8
  code : BitVec 8
deriving DecidableEq, Repr

/-- A release of a context that another one has read (R222): whose it is, its scope code (R220) and the tick of the model when it was made; the scope code
and the place among the reader's accesses of the acquire that read it. -/
structure Heard where
  core : CoreId
  ctx : CtxId
  rel : Nat
  at_ : Nat
  acq : Nat
  acc : Nat
deriving DecidableEq, Repr

/-- What orders a context's accesses against those of others (R221, R222, R224): the scope code and the tick of its fences, after which each of its stores
is a release; the releases that its plain loads have read, which a later fence makes acquires; and those that it has synchronised with. -/
structure Sync where
  rels : List (Nat × Nat)
  half : List Heard
  heard : List Heard
deriving DecidableEq, Repr

/-- A hardware context (R12, R79, R84). -/
structure Ctx where
  st : CtxState
  readyAt : Nat
  on_ : Option BlockOn
  status : RetStatus
  pc : BitVec 18
  via : Option Via
  s : Vector Word 64
  p : Vector Word 24
  v : Vector VWord 32
  sc : Vector (BitVec 512) 8
  loop : LoopState
  grd : Bool
  nm1 : BitVec 2
  task : BitVec 24
  dmem : Word
  fmtn : BitVec 5
  tol : Word
  rseed : Word
  rpos : Word
  pts : Word
  lease : BitVec 16
  accMask : BitVec 8
  fmtPend : List FmtPend
  runCount : Nat
  dbarPend : Option DbarPend
  launch : Option Nat
  group : Nat
  trigged : Bool
  held : Bool
  replay : Option ReplayRec
  sync : Sync
deriving DecidableEq, Repr

/-! ### In-flight work of a core -/

/-- A register destination (R68); `nothing` for a load whose value goes to no register (`ewr.blk`, `bnload`), which may still meet poison (R195). -/
inductive Dest where
  | s (r : SReg) | p (r : PReg) | v (r : VNum) | sc (r : Fin 8) | spec (r : SpecReg) | nothing
deriving DecidableEq, Repr

/-- A place of a loaded value that is read from the core's own scratchpad: its first bit and its width, the bytes that are read, whether they are
sign-extended, and what the mitten buffer holds of them (R198 to R201, R207). -/
structure LoadPiece where
  bit : Nat
  width : Nat
  a : Nat
  n : Nat
  signed : Bool
  bufMask : BitVec 8
  bufData : Word
deriving DecidableEq, Repr

/-- An in-flight register result (R68, R69): the cycle of its issue and the one from which it is settled, whether it has landed early, whether a later-issued
write has landed before it (it is then discarded), its value when known, the access that supplies it, when the loaded unit was
poisoned (R195) its PA with the load's bundle and the next one, and what is read of the scratchpad when the acquires of its bundle have returned (R214). -/
structure InFlight where
  ctx : CtxId
  dest : Dest
  issued : Nat
  due : Nat
  landed : Bool
  dead : Bool
  val : Option VWord
  acc : Option Nat
  poison : Option (Nat × BitVec 18 × BitVec 18)
  src : List LoadPiece
deriving DecidableEq, Repr

/-- Memory classes (R187). -/
inductive MemClass where
  | hbm | tier | peer | remote | onchip
deriving DecidableEq, Repr

/-- Operations of `amo.*` (R208). -/
inductive AmoOp where
  | add | min | max | and | or | xor | swap | cas | fadd | umax
deriving DecidableEq, Repr

/-- Operations of `nbop.*` (R209). -/
inductive NbOp where
  | addF32 | addF64 | addI32 | addI64 | maxF32 | minF32 | scaleF32 | scaleF64
deriving DecidableEq, Repr

/-- What a global access does. -/
inductive AccKind where
  | load (signed : Bool)
  | store
  | amo (op : AmoOp)
  | nbop (op : NbOp)
deriving DecidableEq, Repr

/-- An outstanding global access (R202, R208, R209, R215, R220): it is performed at its home, and then its reply or acknowledgement reaches
the core. `cycle` is that of its bundle (R214); `policy` is the cache policy of its page (R192); `bufMask` and `bufData` are the bytes a surrogate's load
takes from the mitten buffer (R207). `scope` is the scope code of an acquire or a release (R220), `points` the scope codes and the ticks of the releases that a
store stands for (R221). -/
structure Access where
  id : Nat
  ctx : CtxId
  cycle : Nat
  policy : BitVec 2
  pc : BitVec 18
  next : BitVec 18
  kind : AccKind
  size : Nat
  pa : Nat
  cls : MemClass
  dieHomed : Bool
  acq : Bool
  rel : Bool
  scope : Nat
  points : List (Nat × Nat)
  data : VWord
  cmp : Word
  mask : Word
  bufMask : BitVec 8
  bufData : Word
  performed : Bool
  poisoned : Bool
  result : Word
deriving DecidableEq, Repr

/-- An effect of the bundle being issued that takes place at its commit (R67). -/
inductive Staging where
  | spad (addr size : Nat) (data : VWord)
  /-- The points at which the store staged last is a release (R221). -/
  | flag (pa size : Nat) (points : List (Nat × Nat))
  | glob (a : Access)
  | buffered (pa size : Nat) (policy : BitVec 2) (data : VWord)
deriving DecidableEq, Repr

/-- Rows of R354, in its order; `fenceMatrix` is an `xfence` whose CORE or NB part and matrix wait run at the same time (R225), and `send` the wait for a full
fabric send queue, which R235 names and R354 does not (assumption 80). -/
inductive FreezeCause where
  | reply | staging | contention | walk | fence | fenceMatrix | wsig | random | matrix | slot | record | group | send
deriving DecidableEq, Repr

/-- The freeze of a core (R6, R354): its cause, the context whose bundle or result it waits for, the counted clock periods of the gauntlet,
its whole length, whether that bundle has committed, and the accesses awaited. -/
structure Freeze where
  cause : FreezeCause
  ctx : CtxId
  count : Nat
  length : Nat
  committed : Bool
  accs : List Nat
deriving DecidableEq, Repr

/-- A trap-queue record (R356). -/
structure Record where
  seq : Word32
  core : CoreId
  ctx : CtxId
  smask : BitVec 8
  src : BitVec 3
  code : BitVec 8
  next : BitVec 18
  pc : BitVec 18
  addr : Word
  info : Word
deriving DecidableEq, Repr

/-- The src 0 or 1 record a core waits on (R357), whether it stands in the trap queue yet (R235), and the words of its bundle (R358). -/
structure Outstanding where
  rcd : Record
  placed : Bool
  words : List Word32
deriving DecidableEq, Repr

/-- What the bytes of an operand window decide (R142): the result row of their row; the column of their row, or the column of a coefficient, in the rows
of A whose elements that meet them are not zero (R47), given row by row as bits; the one row of an `sdscan` (R156), of one seed by columns; or the elements of a converted row. -/
inductive WinKind where
  | rows
  | cols (f : MFmt) (live : List Nat)
  | coefs (live : List Nat)
  | scan (one : Bool)
  | elems (f : MvFmt)
deriving DecidableEq, Repr

/-- An operand window of the matrix unit: base, bytes a row, number of rows. -/
structure Window where
  kind : WinKind
  base : Nat
  row : Nat
  n : Nat
deriving DecidableEq, Repr

/-- The matrix operation in progress (R143): its result, formed from its operands, lands when it completes. `dirty` lists the operand bytes that
another path has written since it issued (R142), as address and length; `pair` names the scalars of `sdscan`, `buf` the staging buffer that `mma.h` uses
(R149), and `no` is the number that the rows of an `mst` have among the core's noted writes (R228). -/
structure MtxOp where
  ctx : CtxId
  ends : Nat
  acc : Option (Fin 8)
  rows : List VWord
  f64 : Bool
  pair : Option SReg
  store : Option (Nat × Nat)
  wins : List Window
  dirty : List (Nat × Nat)
  buf : Option Nat
  no : Nat
deriving DecidableEq, Repr

/-- A staging buffer (R149, R150): the entry it was staged from, the pages it was read from, its rows, and whether the fetch has completed. -/
structure Staged where
  launch : Nat
  entry : BitVec 256
  pages : List Nat
  rows : List (BitVec 1024)
  done : Bool
deriving DecidableEq, Repr

/-- The register sets of an engine (R90, R91). -/
structure EngineRegs where
  active : Vector Word 16
  shadow : Vector Word 16
  claim : Option CtxId
  swap : Option CtxId
deriving DecidableEq, Repr

/-- Access paths (R212). -/
inductive Path where
  | core | copy | mtx | xft | coll | nb
deriving DecidableEq, Repr

/-- The task that has made a write: its launch, its core group, its number, and the `%dmem` that names its domains (R25). -/
structure Owner where
  launch : Nat
  group : Nat
  task : Nat
  dmem : Word
deriving DecidableEq, Repr

/-- What a transfer reports to: barriers, each with whether a phase of it that the transfer reported to is over (R315), a scoreboard bit (R319) and the copy
command (R227). -/
structure Reports where
  bars : List (Nat × Bool)
  sb : Option (Nat × Nat)
  cmd : Option Word32
deriving DecidableEq, Repr

/-- A write of one path of a core that is not ordered yet before reads on its other paths (R228): who made it, its number and the tick when it was made, its
physical address, the bytes it replaced, and the paths, in the bits of R212, that may still read them; `seen` gives the contexts that have observed it complete,
each with the tick (R227), `anyVal` says that such a read returns any value (R179), and `early` that memory does not hold the bytes yet, which then stand in
`old` (R142). -/
structure Fresh where
  path : Path
  ctx : CtxId
  owner : Option Owner
  no : Nat
  at_ : Nat
  a : Nat
  old : List Byte
  left : BitVec 6
  tells : Reports
  seen : List (CtxId × Nat)
  anyVal : Bool
  early : Bool
deriving DecidableEq, Repr

/-- The transform operation in progress (R177, R179): transforms done, input bytes written by other paths, and the writes that nothing ordered before its
start. -/
structure XftOp where
  ctx : CtxId
  start : Nat
  done : Nat
  dirty : List (Nat × Nat)
  behind : List Fresh
deriving DecidableEq, Repr

/-- A command of the copy queue (R235, R241, R246, R254, R258, R370): `sectors` done and `decs` decremented at its barrier (R370: a restored helper command
does some again), helper rows ended, ranks served, whether it is stopped on an engine fault, its record while the trap queue is full, and the code of an
absent rank, what other paths have written since its commit, and the writes that nothing ordered before it (R225, R251). -/
structure Command where
  tag : Word32
  eng : Eng
  help : Bool
  ctx : CtxId
  set : Vector Word 16
  dst : Word
  src : Word
  n : Nat
  sectors : Nat
  decs : Nat
  row : Nat
  rowOut : List Byte
  served : List Nat
  stopped : Bool
  waiting : Option Record
  err : Nat
  dirty : List (Nat × Nat)
  behind : List Fresh
deriving DecidableEq, Repr

/-- A mitten-buffer entry (R349, R370): the task's context, the PA of the unit, the cache policy of its page (R192), byte mask, data, and whether the check
bits find an error in it that they cannot correct (R407). -/
structure MittenEntry where
  ctx : CtxId
  pa : Nat
  policy : BitVec 2
  mask : BitVec 8
  data : Word
  bad : Bool
deriving DecidableEq, Repr

/-- A lease copy of a 128-byte line (R216), with the last `%pts` at which each context may be served from it: that of its first load of the line, plus
its lease (R218). -/
structure LineCopy where
  line : Nat
  wts : Nat
  rts : Nat
  data : BitVec 1024
  limits : Vector (Option Nat) 4
deriving DecidableEq, Repr

/-- A kept translation (R281): the page's virtual base, its size, where it maps. -/
structure Kept where
  asid : BitVec 14
  va : Nat
  size : Nat
  pa : Nat
  cls : MemClass
  isSealed : Bool
  policy : BitVec 2
  glob : Bool
deriving DecidableEq, Repr

/-- A walk that a page walker serves for a bundle of a context (R280); `old` when an invalidation has started since (R282). -/
structure Walk where
  core : CoreId
  ctx : CtxId
  asid : BitVec 14
  va : Nat
  old : Bool
deriving DecidableEq, Repr

/-- The end of a walk that a core's bundle has asked for: the translation, or the code and the level of its failure (R206, R278). -/
structure WalkEnd where
  ctx : CtxId
  asid : BitVec 14
  va : Nat
  kept : Option Kept
  code : Nat
  level : Nat
deriving DecidableEq, Repr

/-- A write that an engine or a guard commit has sent to another package and that is not acknowledged yet (R226, R227, R231, R380): the copy command and
its sector, or a drained store of the context. -/
structure Sent where
  id : Nat
  ctx : CtxId
  cmd : Option (Word32 × Nat)
  pa : Nat
  size : Nat
deriving DecidableEq, Repr

/-- The image a core last loaded (R337). -/
structure Resident where
  image : Nat
  ioff : Nat
  cbytes : Nat
  dataBytes : Nat
deriving DecidableEq, Repr

/-- A core (R8). Scratchpads are part of `State.mem`, at their on-chip addresses (R184). `restoring` holds from the placement of a saved group to its
release (R354, R373), and `imemBad` lists the words of instruction memory that hold an error which the check bits cannot correct (R407). `noted` counts the
writes noted in `recent`; `xftBehind` keeps what nothing ordered before the `xft.go` whose swap is pending (R179); `heldStores` are the scratchpad stores of a
bundle whose acquires have not returned (R214); and `pctlImg` is the save area of the request under way (R366). -/
structure Core where
  ctxs : Vector Ctx 4
  running : Option CtxId
  cycle : Nat
  acc : Vector (Vector VWord 64) 8
  eng0 : EngineRegs
  eng1 : EngineRegs
  eng2 : EngineRegs
  xft : Option XftOp
  mtx : Option MtxOp
  staging : Vector (Option Staged) 8
  copyq : List Command
  nextTag : Word32
  rndOwner : CtxId
  rndCount : Nat
  patterns : Vector (BitVec 512) 8
  patPend : List (Nat × Fin 8 × BitVec 512)
  imem : List (Nat × Word32)
  imap : List Nat
  imemBad : List Nat
  resident : List Resident
  mitten : List MittenEntry
  mittenDrain : List MittenEntry
  inflight : List InFlight
  accesses : List Access
  nextAcc : Nat
  copies : List LineCopy
  walked : List WalkEnd
  recent : List Fresh
  sent : List Sent
  freeze : Option Freeze
  record : Option Outstanding
  perf : Vector Word 16
  pctlState : BitVec 2
  pctlArea : BitVec 52
  pctlImg : BitVec 52
  pctlForce : Bool
  restoring : Bool
  noted : Nat
  xftBehind : List Fresh
  heldStores : List (CtxId × Staging)
deriving DecidableEq, Repr

/-- A cluster's trap queue (R356, R358): its records, of which the last `late` were placed while a new handler waits for its commit point, and are for it
(R416). -/
structure TrapQueue where
  records : List Record
  late : Nat
  seq : Word32
  tail : Word
  head : Word
deriving DecidableEq, Repr

/-! ### Dies -/

/-- What an invalidation covers, as the registers stood at its go (R282). -/
structure InvRange where
  va : Word
  len : Word
  all : Bool
  g : Bool
  asid : BitVec 14
deriving DecidableEq, Repr

/-- The tag of a line (R191, R216): `held` says that common memory holds the line's data, which an access through a write-back page brings there (R192). -/
structure LineTag where
  line : Nat
  wts : Nat
  rts : Nat
  dirty : Bool
  held : Bool
deriving DecidableEq, Repr

/-- A launch queue (R331, R338). `boost` is the aging of its candidate. -/
structure LQueue where
  base : BitVec 52
  en : Bool
  age : BitVec 16
  lsize : BitVec 5
  prio : BitVec 3
  tail : Word32
  head : Word32
  park : Bool
  reason : BitVec 3
  fpa : BitVec 52
  boost : Nat
deriving DecidableEq, Repr

/-- A channel of a launch (R262, R289) with its FIFO (R261): elements on their way, and elements arrived. -/
structure Chan where
  idx : Nat
  vec : Bool
  depth : Nat
  fmt : BitVec 5
  prod : Nat
  cons : Nat
  off : Nat
  sent : Nat
  received : Nat
  known : Nat
  transit : List VWord
  fifo : List VWord
deriving DecidableEq, Repr

/-- A fetched launch (R12, R14, R334, R336, R348): its record, its image's header and the exact image's header words once
checked, and its progress; `ahead` lists groups placed out of order (R352). -/
structure Launch where
  id : Nat
  queue : Fin 64
  node : Option (Nat × Nat)
  recPa : Nat
  tag : Word
  image : Nat
  exact : Nat
  asid : BitVec 14
  gx : Nat
  gy : Nat
  gz : Nat
  cores : BitVec 256
  htab : Word
  hcount : Nat
  coresident : Bool
  serial : Bool
  irq : Bool
  seed : Word
  tol : Word
  args : Vector Word 8
  recordOk : Bool
  checked : Bool
  n : Nat
  accMask : BitVec 8
  current : Nat
  whole : Bool
  guard : Bool
  ioff : Nat
  cbytes : Nat
  entry : Nat
  xhead : Vector Word 8
  boards : List Nat
  domains : Vector Word 4
  chans : List Chan
  nextGroup : Nat
  ahead : List Nat
  exactTasks : List Nat
  started : Bool
  retired : List Nat
  freed : Nat
  exactFreed : Nat
  exactSent : Nat
  killed : Nat
  trigged : List Nat
  commits : Nat
  gPass : Word32
  gFail : Word32
  gOvfl : Word32
  gFault : Word32
deriving DecidableEq, Repr

/-- A node of a running graph (R301, R343, R344): its words, its successors, and how far it is. -/
structure GNode where
  w : Vector Word 8
  succs : List Nat
  step : Nat
  started : Bool
  complete : Bool
  trigged : Bool
deriving DecidableEq, Repr

/-- A running graph (R342, R346). -/
structure Graph where
  id : Nat
  queue : Fin 64
  entry : Nat
  irq : Bool
  nodes : List GNode
  failed : Option (Nat × Nat)
deriving DecidableEq, Repr

/-- An installed scoreboard arm (R319, R320). `saved` is the place of the image that holds it while its context is saved, and `seen` says that its bits
were all set meanwhile. -/
structure Arm where
  core : CoreId
  ctx : CtxId
  addr : Nat
  board : Nat
  first : Nat
  count : Nat
  consume : Bool
  saved : Option Nat
  seen : Bool
deriving DecidableEq, Repr

/-- What a member of a domain had issued when it arrived at the current `dbar` (R322): its task, the numbers of its next access and its next collective, its
commands in the copy queue, and the elements sent on each of its channels. -/
structure Mark where
  core : CoreId
  ctx : CtxId
  task : Nat
  acc : Nat
  coll : Nat
  cmds : List Word32
  chans : List (Nat × Nat)
deriving DecidableEq, Repr

/-- A domain barrier counter (R321), with the marks of the members that have arrived. -/
structure DCounter where
  launch : Nat
  level : Nat
  idx : Nat
  members : Nat
  live : Nat
  arrived : Nat
  gen : BitVec 16
  drain : Bool
  phase : Bool
  marks : List Mark
deriving DecidableEq, Repr

/-- The active copy of an address group (R292 to R294). -/
structure GroupCopy where
  idx : Nat
  isSealed : Bool
  combine : Bool
  gid : Word32
  key : Nat
  digest : Word
  members : List (Vector Word 4)
deriving DecidableEq, Repr

/-- A deactivation under way (R295): its group, the number of the next collective when its op was written, and the transposes that named the group then. -/
structure GroupRun where
  index : BitVec 10
  colls : Nat
  cmds : List (CoreId × Word32)
deriving DecidableEq, Repr

/-- A field's current meter and clock (R325, R326): `above` and `below` count consecutive windows. -/
structure FieldMeter where
  peak : BitVec 16
  avg : BitVec 16
  lim : BitVec 16
  decl : BitVec 16
  thr : Word32
  ceil : BitVec 3
  step : BitVec 3
  above : Nat
  below : Nat
deriving DecidableEq, Repr

/-- What the window of a stopped command has met (R251): what other paths have written since its commit, and the writes that nothing ordered before it. -/
structure SavedCmd where
  tag : Word32
  eng : Eng
  dirty : List (Nat × Nat)
  behind : List Fresh
deriving DecidableEq, Repr

/-- A saved core group (R369 to R373): where its image lies and, beside the image, what R370 and R371 give no place for: the governing `%fmtn` and the
earlier pending values of a context, how its PC was reached (R107), the owners, the page policies and the errors of the mitten-buffer entries, and the codes of absent ranks of stopped
commands with their contexts; the `%pts` that the end of a communication phase has raised a saved member to (R229); the windows of the stopped commands
(R251); and what orders a context's accesses (R222). -/
structure SavedGroup where
  core : CoreId
  launch : Nat
  group : Nat
  area : Nat
  ctxs : List CtxId
  fmtn : List (CtxId × BitVec 5 × List FmtPend)
  vias : List (CtxId × Option Via)
  owners : List (CtxId × BitVec 2 × Bool)
  errs : List (CtxId × Word32 × Nat)
  clocks : List (CtxId × Nat)
  cmds : List SavedCmd
  syncs : List (CtxId × Sync)
deriving DecidableEq, Repr

/-- A Patante hart (R352): its x-registers, the head and entry that its last `qfetch` of each queue latched, the
`sigwait` it stalls on and whether a QTAIL write or a retirement has ended that stall, and mcause. -/
structure Hart where
  x : Vector Word 32
  latch : List (Fin 64 × Word32 × Word × Word)
  stall : Option (XReg × XReg × XReg)
  woken : Bool
  mcause : Word
deriving DecidableEq, Repr

/-- A launch entry that a hart has taken from a queue (R352) and not dispatched yet: the launch number that it has among the fetches of the die (R338), the
queue, the record's PA and the tag, which the record's word 25 gets (R334). -/
structure Taken where
  id : Nat
  queue : Fin 64
  recPa : Nat
  tag : Word
deriving DecidableEq, Repr

/-- A helper routine as it was loaded: its index, its entry offset, its body (R409, R412). -/
structure Routine where
  index : Nat
  entry : Nat
  body : List Byte
deriving DecidableEq, Repr

/-- A die (R8): `stored` and `landed` keep, of each line, the timestamp of the last write of a context of the die, and of the last write of any other writer
but an inbound host write: what an acquire must make visible (R222). Its table-control (R273), fault-control (R355), queue (R331) and meter (R325)
registers. -/
structure Die where
  asbase : Word
  gtbase : Word
  invva : Word
  invlen : Word
  invBusy : Bool
  invRun : InvRange
  invAll : Bool
  invG : Bool
  invAsid : BitVec 14
  grpBusy : Bool
  grpStatus : BitVec 4
  grpIndex : BitVec 10
  grpRun : Option GroupRun
  uncombined : Word32
  groups : List GroupCopy
  tlb : List Kept
  walks : List Walk
  lines : List LineTag
  floors : List (Nat × Nat)
  stored : List (Nat × Nat)
  landed : List (Nat × Nat)
  queues : Vector LQueue 64
  lastQueue : Fin 64
  launches : List Launch
  graphs : List Graph
  nextId : Nat
  boards : Vector (BitVec 4096) 16
  arms : List Arm
  counters : List DCounter
  batch : List (CoreId × CtxId)
  heldBatch : List (CoreId × CtxId)
  gauntLg : BitVec 5
  svclim : Word32
  krbase : BitVec 52
  krDrop : BitVec 16
  krTail : BitVec 16
  krHead : BitVec 16
  krLsize : BitVec 4
  pfto : BitVec 16
  kreqImg : Bool
  kreqArea : BitVec 36
  kreqGrp : Bool
  kreqCtx : BitVec 2
  kreqCore : BitVec 8
  fields : Vector FieldMeter 4
  capcore : BitVec 256
  saved : List SavedGroup
  routines : List Routine
  harts : Vector Hart Config.hartsPerDie
  taken : List Taken
deriving DecidableEq, Repr

/-! ### The package -/

/-- A peer-window entry (R303). -/
structure PeerEntry where
  v : Bool
  port : Bool
  err : Bool
  size : BitVec 20
  bus : BitVec 52
deriving DecidableEq, Repr

/-- A collective in progress (R388, R391, R393): its bundle and the next one (R71), the access number its results wait for, the launch of its task, the rows that wait uncombined, whether the rows go by the ring (R390), the next rank and the prefix of the combining entry (R296) or of the ring, the absent
ranks with their codes, and the members served. -/
structure CollOp where
  id : Nat
  core : CoreId
  ctx : CtxId
  pc : BitVec 18
  next : BitVec 18
  acc : Nat
  launch : Option Nat
  reduce : Bool
  group : Nat
  desc : Vector Word 4
  off : Word
  data : VWord
  rows : List (Nat × VWord)
  readRows : List (Nat × VWord)
  ring : Bool
  entry : Option (Nat × VWord)
  passed : Nat
  absent : List (Nat × Nat)
  answered : Bool
  result : VWord
  served : List Nat
  dfail : Bool
deriving DecidableEq, Repr

/-- The security state of the firmware (R408, R411, R415): running versions and measurements, fused minima, and the staged image. -/
structure Firmware where
  minVer : Vector (BitVec 16) 4
  runVer : Vector (BitVec 16) 4
  digests : Vector (BitVec 384) 3
  staged : Option (List Byte)
  waitHandler : Bool
deriving DecidableEq, Repr

/-- The number of visor words: histograms and counters of R328, in its order. Assumption 22. -/
abbrev visorWords : Nat := 815

/-- What a packet of an address group carries (R294, R383): gid, digest and, of a sealed group, the counter value of its nonce and its authentication tag. -/
structure Stamp where
  gid : Word32
  digest : Word
  nonce : Option (BitVec 45 × BitVec 128)
deriving DecidableEq, Repr

/-- What leaves the machine (R303, R380, R398, R399, R401, R415): the model's own list, newest last. `transferError` is an error that a matrix, transform or
near-bank operation met (R195; assumption 63). What a packet of a sealed group carries beside its header is ciphertext (R383). -/
inductive OutMsg where
  | irq (vector : Nat) (port : Fin 2)
  | completion (bytes : List Byte)
  | unsupported
  | peerRead (port : Bool) (bus : Nat) (size : Nat)
  | peerWrite (port : Bool) (bus : Nat) (bytes : List Byte)
  | packet (pkg : Nat) (pa : Nat) (stamp : Option Stamp) (bytes : List Byte)
  | arrival (pkg core bar : Nat) (err : Bool) (stamp : Stamp)
  | bit (pkg core board first : Nat) (stamp : Stamp)
  | rowRequest (pkg rank off bytes : Nat) (ring : Option RingPrefix) (stamp : Stamp)
  | remote (pkg : Nat) (off : Nat) (size : Nat)
  | remoteAmo (pkg : Nat) (off : Nat) (size : Nat) (op : AmoOp) (data cmp : Word)
  | transferError (core : CoreId) (pa : Nat)
  | reply (negative : Bool) (data : Word) (stamp : Option Stamp)
  /-- The access has met a poisoned unit, at an offset (R195, R380). -/
  | poisonReply (off : Word)
  | row (rank : Nat) (gone : BitVec 8) (data : VWord) (stamp : Stamp)
  | report (bytes : List Byte)
deriving DecidableEq, Repr

/-- The package; `queued` counts the packets that have entered its send queues since ready (R235). Fabric registers (R379), ports (R400), bring-up (R404), fuses (R405), mailbox (R414), key store (R413), visor (R328, R329). -/
structure Pkg where
  fabid : BitVec 19
  ports : BitVec 64
  gpeer : BitVec 64
  lost : Word32
  sealfail : Word32
  mism : Word32
  pwt : Vector PeerEntry 256
  w0 : BitVec 4
  w1 : BitVec 4
  g0 : BitVec 4
  g1 : BitVec 4
  m0 : Bool
  m1 : Bool
  ready : Bool
  hpend : Bool
  unit : BitVec 16
  code : BitVec 8
  step : BitVec 4
  tier : Word32
  stepping : BitVec 8
  tkind : BitVec 4
  hbm : BitVec 8
  fld : BitVec 8
  opt : BitVec 64
  mbBusy : Bool
  mbStatus : BitVec 8
  mbCmd : BitVec 8
  mbArg : Vector Word 4
  mbBuf : BitVec 52
  keys : List (Nat × BitVec 256)
  fw : Firmware
  visor : Vector Word visorWords
  visorNv : Vector Word visorWords
  colls : List CollOp
  nextColl : Nat
  nonce : BitVec 45
  queued : Nat
deriving DecidableEq, Repr

/-! ### The bundle being issued -/

/-- A fault of a slot of the bundle being issued (R74). -/
structure SlotFault where
  slot : Fin 8
  code : BitVec 8
  addr : Word
  info : Word
deriving DecidableEq, Repr

/-- The bundle being issued: where it is, its brim, the slot that is being executed, and what its slots have staged for the commit (R67). `touched`
lists the 64-byte scratchpad words its slots need (R189), `acqWait` its acquires (R221), and `walks` the addresses whose walks its slots need (R206);
with `noWalk` no slot translates (R74). -/
structure Issue where
  core : CoreId
  ctx : CtxId
  slot : Fin 8
  pc : BitVec 18
  len : Nat
  words : List Word32
  brim : List Word32
  safe : Bool
  jump : Option Word
  /-- The jump's target was read from an unsettled register (R110). -/
  jumpOpen : Bool
  loopSet : Option LoopState
  stores : List Staging
  touched : List Nat
  pops : Nat
  faults : List SlotFault
  blocked : Option BlockOn
  waits : Option FreezeCause
  acqWait : List Nat
  noWalk : Bool
  walks : List Nat
  retire : Bool
  verdict : Option Bool
  trap : Option (BitVec 8 × BitVec 18)
deriving DecidableEq, Repr

/-- A barrier update (R306). -/
inductive UpdKind where
  | arrive | arriveErr | sector | expect | error | flag | overflow
deriving DecidableEq, Repr

/-- A barrier update on its way to a scratchpad (R307, R312), with the launch of the task it comes from (R372). -/
structure Update where
  core : CoreId
  addr : Nat
  kind : UpdKind
  n : Nat
  launch : Option Nat
deriving DecidableEq, Repr

/-- A release store as memory holds it (R221, R222): where it lies and the value it wrote, the context, and the scope code and the tick of each release that it
stands for. -/
structure Flag where
  pa : Nat
  size : Nat
  val : Nat
  core : CoreId
  ctx : CtxId
  points : List (Nat × Nat)
deriving DecidableEq, Repr

/-- The writes to physical addresses while a command with a virtual source is open, since what it reads of them is open (R251): address and length. -/
structure Watch where
  core : CoreId
  tag : Word32
  dirty : List (Nat × Nat)
deriving DecidableEq, Repr

/-- The machine. -/
structure State where
  cores : Vector Core 512
  traps : Vector TrapQueue 64
  die0 : Die
  die1 : Die
  pkg : Pkg
  mem : List Host.Cell
  poison : List Nat
  watch : List Watch
  flags : List Flag
  updates : List Update
  issue : Issue
  tick : Nat
  agenda : List Instr
  frontWords : List Word32
  hart : DieId × Fin Config.hartsPerDie
  rota : List CoreId
  out : List OutMsg
deriving DecidableEq, Repr

/-- Why the machine stops. -/
inductive Fault where
  /-- An event names a core identifier with cluster value 6 or 7, which names no core (R11). Raised by BUNDLE_ISSUE. Safe: no run of the hardware has such
  an event. -/
  | noSuchCore
deriving DecidableEq, Repr

/-- Why the model gives no meaning. -/
inductive Refusal where
  /-- The instruction has no meaning in the model yet. Raised by a refused arm of exec. Safe. -/
  | notModelled (mnemonic : String)
  /-- A Patante hart meets a word that is none of the custom instructions of R352: the rest of its instruction set stands outside the spec. Raised by the step
  when it decodes a front-end word. Safe. -/
  | outsideSpec
deriving DecidableEq, Repr

/-! ### Reset -/

def LoopState.zero : LoopState := ⟨0, 0, 0⟩

/-- A context after reset (R17, R41, R79, R84; assumption 2). -/
def Ctx.reset : Ctx where
  st := .free
  readyAt := 0
  on_ := none
  status := .done
  pc := 0
  via := none
  s := .replicate 64 0
  p := .replicate 24 0
  v := .replicate 32 0
  sc := .replicate 8 (BitVec.ofNat 512 (127 * ((2 ^ 512 - 1) / 255)))
  loop := .zero
  grd := false
  nm1 := 0
  task := 0
  dmem := 0
  fmtn := 0x05
  tol := 0
  rseed := 0
  rpos := 0
  pts := 0
  lease := 0x0040
  accMask := 0
  fmtPend := []
  runCount := 0
  dbarPend := none
  launch := none
  group := 0
  trigged := false
  held := false
  replay := none
  sync := ⟨[], [], []⟩

def EngineRegs.zero : EngineRegs := ⟨.replicate 16 0, .replicate 16 0, none, none⟩

/-- The identity pattern: byte i = i (R298). -/
def patternIdentity : BitVec 512 := BitVec.ofNat 512 ((List.range 64).foldl (fun a i => a + i * 256 ^ i) 0)
/-- 0x80 in every byte (R298). -/
def patternZero : BitVec 512 := BitVec.ofNat 512 (128 * ((2 ^ 512 - 1) / 255))
/-- The pattern table at ready and at group placement on an idle core (R298). -/
def patternsReset : Vector (BitVec 512) 8 := (Vector.replicate 8 patternZero).set 0 patternIdentity

/-- A core after reset (R79, R90, R182, R298; assumption 2). -/
def Core.reset : Core where
  ctxs := .replicate 4 Ctx.reset
  running := none
  cycle := 0
  acc := .replicate 8 (.replicate 64 0)
  eng0 := .zero
  eng1 := .zero
  eng2 := .zero
  xft := none
  mtx := none
  staging := .replicate 8 none
  copyq := []
  nextTag := 0
  rndOwner := 0
  rndCount := 0
  patterns := patternsReset
  patPend := []
  imem := []
  imap := []
  imemBad := []
  resident := []
  mitten := []
  mittenDrain := []
  inflight := []
  accesses := []
  nextAcc := 0
  copies := []
  walked := []
  recent := []
  sent := []
  freeze := none
  record := none
  perf := .replicate 16 0
  pctlState := 0
  pctlArea := 0
  pctlImg := 0
  pctlForce := false
  restoring := false
  noted := 0
  xftBehind := []
  heldStores := []

def LQueue.reset : LQueue := ⟨0, false, 0, 4, 0, 0, 0, false, 0, 0, 0⟩
def FieldMeter.reset : FieldMeter := ⟨0, 0, 0x0690, 0, 0, 0, 0, 0, 0⟩
def Hart.reset : Hart := ⟨.replicate 32 0, [], none, false, 0⟩

/-- CAPCORE of a fully enabled die: clusters 0 to 5 of every field (R1, R405; assumption 14). -/
def capcoreFull : BitVec 256 := BitVec.ofNat 256 ((List.range 4).foldl (fun a f => a + (2 ^ 48 - 1) * 2 ^ (64 * f)) 0)

/-- A die after reset (R273 to R275, R325, R331, R355). -/
def Die.reset : Die where
  asbase := 0
  gtbase := 0
  invva := 0
  invlen := 0
  invBusy := false
  invRun := ⟨0, 0, false, false, 0⟩
  invAll := false
  invG := false
  invAsid := 0
  grpBusy := false
  grpStatus := 0
  grpIndex := 0
  grpRun := none
  uncombined := 0
  groups := []
  tlb := []
  walks := []
  lines := []
  floors := []
  stored := []
  landed := []
  queues := .replicate 64 .reset
  lastQueue := 63
  launches := []
  graphs := []
  nextId := 0
  boards := .replicate 16 0
  arms := []
  counters := []
  batch := []
  heldBatch := []
  gauntLg := 21
  svclim := 1000
  krbase := 0
  krDrop := 0
  krTail := 0
  krHead := 0
  krLsize := 6
  pfto := 50
  kreqImg := false
  kreqArea := 0
  kreqGrp := false
  kreqCtx := 0
  kreqCore := 0
  fields := .replicate 4 .reset
  capcore := capcoreFull
  saved := []
  routines := []
  harts := .replicate _ .reset
  taken := []

/-- The package after reset (R303, R379, R400, R404, R405, R414; assumption 14). -/
def Pkg.reset : Pkg where
  fabid := 0
  ports := 0
  gpeer := 0
  lost := 0
  sealfail := 0
  mism := 0
  pwt := .replicate 256 ⟨false, false, false, 0, 0⟩
  w0 := 0
  w1 := 0
  g0 := 0
  g1 := 0
  m0 := false
  m1 := false
  ready := false
  hpend := false
  unit := 0
  code := 0
  step := 1
  tier := 0
  stepping := 0
  tkind := 0
  hbm := 0xFF
  fld := 0xFF
  opt := BitVec.allOnes 64
  mbBusy := false
  mbStatus := 0
  mbCmd := 0
  mbArg := .replicate 4 0
  mbBuf := 0
  keys := []
  fw := ⟨.replicate 4 0, .replicate 4 0, .replicate 3 0, none, false⟩
  visor := .replicate _ 0
  visorNv := .replicate _ 0
  colls := []
  nextColl := 0
  nonce := 0
  queued := 0

/-- No bundle is being issued. -/
def Issue.idle : Issue where
  core := 0
  ctx := 0
  slot := 0
  pc := 0
  len := 0
  words := []
  brim := []
  safe := false
  jump := none
  jumpOpen := false
  loopSet := none
  stores := []
  touched := []
  pops := 0
  faults := []
  blocked := none
  waits := none
  acqWait := []
  noWalk := false
  walks := []
  retire := false
  verdict := none
  trap := none

/-- The machine right after reset, before bring-up: BOOTSTAT holds step 1 and not ready (R404), every memory lists nothing (R182; assumption 1). -/
def State.reset : State where
  cores := .replicate 512 Core.reset
  traps := .replicate 64 ⟨[], 0, 0, 0, 0⟩
  die0 := .reset
  die1 := .reset
  pkg := .reset
  mem := []
  poison := []
  watch := []
  flags := []
  updates := []
  issue := .idle
  tick := 0
  agenda := []
  frontWords := []
  hart := (0, 0)
  rota := []
  out := []

end Sys2Proof.Machine
end

