-- ==== Sys2Proof/Machine/Plan.lean ====
section
/-!
DEFINITION. Sys2Proof/Machine/Plan.lean: the parameter set of the transform unit (R161 to R164, R168), the addresses of its components (R175), and its
duration (R177).
-/
namespace Sys2Proof.Machine

/-- Bits lo to lo + w - 1 of a number. -/
def bits (v lo w : Nat) : Nat := v / 2 ^ lo % 2 ^ w
def bit (v i : Nat) : Bool := v / 2 ^ i % 2 == 1

/-- Word i of a set. -/
def setWord (p : Vector Word 16) (i : Nat) : Nat := (p.toList.getD i 0).toNat

/-- The radices (R163), from nibble `i` on; none when the list is invalid. -/
def radices (v : Nat) : Nat → Option (List Nat)
  | 0 => some []
  | n + 1 =>
    if v = 0 then some []
    else if 2 ≤ v % 16 ∧ v % 16 ≤ 5 then (radices (v / 16) n).map (v % 16 :: ·)
    else none
def planRadices (p : Vector Word 16) : List Nat := (radices (setWord p 1) 16).getD []
/-- The transform length N (R163). -/
def planN (p : Vector Word 16) : Nat := (planRadices p).foldl (· * ·) 1
/-- Component size z (R162). -/
def planZ (p : Vector Word 16) : Nat := if bit (setWord p 0) 0 then 8 else 4
/-- Number of transforms B (R164). -/
def planB (p : Vector Word 16) : Nat := bits (setWord p 7) 0 17

/-- One side of a plan: base, element stride, batch stride, and the distance of the imaginary part (R164, R175). -/
structure Side where
  base : Nat
  es : Nat
  bs : Nat
  im : Nat
  split : Bool
deriving DecidableEq, Repr
def planIn (p : Vector Word 16) : Side :=
  let s := bit (setWord p 0) 2
  ⟨setWord p 2, bits (setWord p 4) 0 32, bits (setWord p 4) 32 32, if s then bits (setWord p 6) 0 32 else planZ p, s⟩
def planOut (p : Vector Word 16) : Side :=
  let s := bit (setWord p 0) 3
  ⟨setWord p 3, bits (setWord p 5) 0 32, bits (setWord p 5) 32 32, if s then bits (setWord p 6) 32 32 else planZ p, s⟩
/-- The byte past the last component (R168). -/
def Side.end_ (d : Side) (n b z : Nat) : Nat := d.base + (n - 1) * d.es + (b - 1) * d.bs + d.im + z
/-- The address of the real part of element k of transform b (R175). -/
def Side.at (d : Side) (b k : Nat) : Nat := d.base + b * d.bs + k * d.es
/-- The alignment that R164 asks. -/
def Side.aligned (d : Side) (z plane : Nat) : Bool :=
  let a := if d.split then z else 2 * z
  d.base % a == 0 && d.es % a == 0 && d.bs % a == 0 && plane % a == 0 && (d.split || plane == 0)

/-- XFT_PARAM does not apply (R168). -/
def planOk (p : Vector Word 16) : Bool :=
  let r := radices (setWord p 1) 16
  let bar := setWord p 8
  decide (setWord p 0 < 16) && decide (setWord p 7 < 2 ^ 17) && ((List.range 6).all fun i => setWord p (9 + i) == 0) && bits bar 21 42 == 0 &&
    (match r with | some (_ :: _) => decide (planN p ≤ 16384) | _ => false) && decide (1 ≤ planB p ∧ planB p ≤ 65536) &&
    (planIn p).aligned (planZ p) (bits (setWord p 6) 0 32) && (planOut p).aligned (planZ p) (bits (setWord p 6) 32 32) &&
    bits bar 0 21 % 16 == 0 && (bit bar 63 || bits bar 0 21 == 0)
/-- The first extent of a plan that leaves the scratchpad: the base that the record of SCRATCH_RANGE carries (R168; assumption 23). -/
def planOutside (p : Vector Word 16) : Option Nat :=
  if 0x200000 < (planIn p).end_ (planN p) (planB p) (planZ p) then some (planIn p).base
  else if 0x200000 < (planOut p).end_ (planN p) (planB p) (planZ p) then some (planOut p).base
  else if bit (setWord p 8) 63 && decide (0x1FFFFF < bits (setWord p 8) 0 21 + 15) then some (bits (setWord p 8) 0 21)
  else none

/-- The duration D (R177). -/
def planD (p : Vector Word 16) : Nat :=
  32 + planB p * ((planRadices p).map fun r => (planN p * (if r = 5 then 2 else 1) + (if planZ p = 8 then r else 2 * r) - 1) / (if planZ p = 8 then r else 2 * r)).sum

/-- Byte x lies in a component of some element of transform b of a side. -/
def Side.holdsIn (d : Side) (n z b x : Nat) : Bool :=
  [d.base + b * d.bs, d.base + b * d.bs + d.im].any fun a =>
    decide (a ≤ x) && (if d.es = 0 then decide (x < a + z) else decide ((x - a) % d.es < z) && decide ((x - a) / d.es < n))
/-- Byte x lies in a component of a side. -/
def Side.holds (d : Side) (n b z x : Nat) : Bool := (List.range b).any fun i => d.holdsIn n z i x

/-- A byte of a range is an output component of the transform in progress: a read of it returns any value (R179). -/
def Core.xftOpen (k : Core) (a n : Nat) : Bool :=
  match k.xft with
  | none => false
  | some _ => let p := k.eng1.active; (List.range n).any fun i => (planOut p).holds (planN p) (planB p) (planZ p) (a + i)

end Sys2Proof.Machine
end

