-- ==== Sys2Proof/Machine/Ops.lean ====
section
/-!
DEFINITION. Sys2Proof/Machine/Ops.lean: the named operations over memory, registers, in-flight results and the bundle being issued, and
taking a trap with the return from one.
-/
namespace Sys2Proof.Machine

/-- The outcome of a step. -/
abbrev Out := Host.Outcome State Fault Refusal

/-! ### Memory -/

/-- What a byte that is not listed reads as (R182, R402; assumption 1). -/
def blank : Byte := 0

/-- The canonical form: addresses strictly rising, no entry equal to what an unlisted address reads as. -/
def Memory.sorted : List Host.Cell → Bool
  | [] => true
  | [_] => true
  | (a, _) :: (b, w) :: t => decide (a < b) && Memory.sorted ((b, w) :: t)
def Memory.wf (m : List Host.Cell) : Bool := Memory.sorted m && m.all fun c => c.2 != blank

/-- One byte. -/
def Memory.get : List Host.Cell → Nat → Byte
  | [], _ => blank
  | (b, w) :: t, a => if a = b then w else if a < b then blank else Memory.get t a

/-- One byte written; an entry equal to `blank` is removed. -/
def Memory.set : List Host.Cell → Nat → Byte → List Host.Cell
  | [], a, x => if x = blank then [] else [(a, x)]
  | (b, w) :: t, a, x =>
    if a < b then (if x = blank then (b, w) :: t else (a, x) :: (b, w) :: t)
    else if a = b then (if x = blank then t else (a, x) :: t)
    else (b, w) :: Memory.set t a x

/-- `n` bytes from `a` upward. -/
def Memory.bytes (m : List Host.Cell) (a : Nat) : Nat → List Byte
  | 0 => []
  | n + 1 => Memory.get m a :: Memory.bytes m (a + 1) n
/-- Bytes written from `a` upward. -/
def Memory.setBytes (m : List Host.Cell) (a : Nat) : List Byte → List Host.Cell
  | [] => m
  | x :: t => Memory.setBytes (Memory.set m a x) (a + 1) t

/-- Little-endian value of bytes (R3). -/
def leNat : List Byte → Nat
  | [] => 0
  | x :: t => x.toNat + 256 * leNat t
/-- The low `n` bytes of a value, little-endian (R3). -/
def leBytes : Nat → Nat → List Byte
  | 0, _ => []
  | n + 1, v => BitVec.ofNat 8 v :: leBytes n (v / 256)

def Memory.read (m : List Host.Cell) (a n : Nat) : Nat := leNat (Memory.bytes m a n)
def Memory.write (m : List Host.Cell) (a n v : Nat) : List Host.Cell := Memory.setBytes m a (leBytes n v)

/-! ### Cores, contexts, dies -/

def State.core (s : State) (c : CoreId) : Core := s.cores[c]
def State.setCore (s : State) (c : CoreId) (k : Core) : State := { s with cores := s.cores.set c.val k c.isLt }
def State.mapCore (s : State) (c : CoreId) (f : Core → Core) : State := s.setCore c (f (s.core c))
def Core.ctx (k : Core) (x : CtxId) : Ctx := k.ctxs[x]
def Core.setCtx (k : Core) (x : CtxId) (v : Ctx) : Core := { k with ctxs := k.ctxs.set x.val v x.isLt }
def Core.mapCtx (k : Core) (x : CtxId) (f : Ctx → Ctx) : Core := k.setCtx x (f (k.ctx x))
def State.ctx (s : State) (c : CoreId) (x : CtxId) : Ctx := (s.core c).ctx x
def State.mapCtx (s : State) (c : CoreId) (x : CtxId) (f : Ctx → Ctx) : State := s.mapCore c fun k => k.mapCtx x f
def State.die (s : State) (d : DieId) : Die := if d = 0 then s.die0 else s.die1
def State.setDie (s : State) (d : DieId) (v : Die) : State := if d = 0 then { s with die0 := v } else { s with die1 := v }
def State.mapDie (s : State) (d : DieId) (f : Die → Die) : State := s.setDie d (f (s.die d))
def State.mapPkg (s : State) (f : Pkg → Pkg) : State := { s with pkg := f s.pkg }
def State.mapIssue (s : State) (f : Issue → Issue) : State := { s with issue := f s.issue }
def State.trapQ (s : State) (cl : ClusterId) : TrapQueue := s.traps[cl]
def State.setTrapQ (s : State) (cl : ClusterId) (q : TrapQueue) : State := { s with traps := s.traps.set cl.val q cl.isLt }

/-- An engine record waits for a place in the trap queue (R235). -/
def Core.slotWait (k : Core) : Bool := k.copyq.any fun q => q.waiting.isSome
/-- The core is frozen, with its engines (R6, R71): by a wait, by a record that is not resumed yet or that has no place in the trap queue, by a restore until its
release (R354). A save lets them come to their end (R369). -/
def Core.halted (k : Core) : Bool := k.record.isSome || k.slotWait || k.restoring || (k.freeze.isSome && k.pctlState != 2)

/-- A packet enters the send queue of a port (R235). -/
def State.send (s : State) (m : OutMsg) : State := { s.mapPkg fun p => { p with queued := p.queued + 1 } with out := s.out ++ [m] }

/-- The core that issues the bundle. -/
def State.me (s : State) : Core := s.core s.issue.core
def State.mapMe (s : State) (f : Core → Core) : State := s.mapCore s.issue.core f
/-- The context that issues the bundle. -/
def State.my (s : State) : Ctx := s.me.ctx s.issue.ctx
def State.mapMy (s : State) (f : Ctx → Ctx) : State := s.mapCtx s.issue.core s.issue.ctx f

/-- A core exists: cluster values 6 and 7 never occur (R11). -/
def coreExists (c : CoreId) : Bool := c.val / 8 % 8 < 6
/-- A field is enabled (R405). -/
def State.fieldEnabled (s : State) (d f : Nat) : Bool := s.pkg.fld.getLsbD (4 * d + f)
/-- A core is enabled: it exists, its field is enabled, and CAPCORE holds its bit (R10, R405, R406). -/
def State.coreEnabled (s : State) (c : CoreId) : Bool :=
  coreExists c && (s.die c.die).capcore.getLsbD (c.val % 256) && s.fieldEnabled c.die.val c.field.val

/-! ### Addresses of the physical map (R184) -/

/-- The scratchpad of a core: 2 MiB at 0x0100_0000_0000 + 0x20_0000 times its identifier (R184). -/
def spadBase (c : CoreId) : Nat := 0x010000000000 + c.val * 0x200000
def spadSize : Nat := 0x200000

/-- A read of `n` scratchpad bytes, by any path; a byte of an output of the transform in progress is any value (R179; assumption 18). -/
def State.spadRead (s : State) (c : CoreId) (a n : Nat) : Nat :=
  if (s.core c).xftOpen a n then
    leNat ((List.range n).map fun i => if (s.core c).xftOpen (a + i) 1 then Config.freeBits 8 s.tick (100000 + a + i) else Memory.get s.mem (spadBase c + a + i))
  else Memory.read s.mem (spadBase c + a) n

/-- Two byte ranges share a byte. -/
def overlaps (a n b m : Nat) : Bool := a < b + m && b < a + n && 0 < n && 0 < m

/-- A write of `n` scratchpad bytes at offset `a`, by a path other than the engine concerned, inside an operand window of an operation in
progress: what the engine reads there is open (R142, R179, R251), so the operation keeps the range in its `dirty` list. -/
def Core.noteWrite (k : Core) (a n : Nat) : Core :=
  { k with
    mtx := k.mtx.map fun m => { m with dirty := (a, n) :: m.dirty }
    xft := k.xft.map fun t => { t with dirty := (a, n) :: t.dirty }
    copyq := k.copyq.map fun q => { q with dirty := (a, n) :: q.dirty } }
/-- A write is noted for the commands that read virtual sources (R251). -/
def State.noteWatch (s : State) (pa n : Nat) : State := { s with watch := s.watch.map fun w => { w with dirty := (pa, n) :: w.dirty } }

/-- The poison of the wholly written 8-byte units ends (R195). -/
def unpoison (p : List Nat) (pa n : Nat) : List Nat := p.filter fun u => !(decide (pa ≤ u) && decide (u + 8 ≤ pa + n))
/-- Bytes written to a scratchpad. -/
def State.spadWrite (s0 : State) (c : CoreId) (a : Nat) (b : List Byte) : State :=
  let s := s0.noteWatch (spadBase c + a) b.length
  { s.mapCore c (·.noteWrite a b.length) with
    mem := Memory.setBytes s.mem (spadBase c + a) b, poison := unpoison s.poison (spadBase c + a) b.length }

/-! ### Reads and writes of one path (R212, R228) -/

/-- The bit of a path (R212). -/
def Path.bit : Path → Nat
  | .core => 0
  | .copy => 1
  | .mtx => 2
  | .xft => 3
  | .coll => 4
  | .nb => 5
/-- The paths whose reads a write must be ordered before: all but its own. -/
def Path.others (p : Path) : BitVec 6 := ~~~ (1#6 <<< p.bit)
/-- Nothing reports a write. -/
def Reports.none : Reports := ⟨[], Option.none, Option.none⟩
/-- A byte is one that the write has replaced. -/
def Fresh.holds (r : Fresh) (p : Nat) : Bool := decide (r.a ≤ p) && decide (p < r.a + r.old.length)
/-- A path of a core finds a write that nothing orders before its reads: from some tick on, which is open for each 8-byte unit, so that no read finds a value
older than one already found (R213, R228). Assumption 79. -/
def Fresh.visible (r : Fresh) (c : CoreId) (q : Path) (tick p : Nat) : Bool :=
  decide ((Config.freeBits 64 r.no (2 ^ 60 * (8 * c.val + q.bit + 1) + p / 8)).toNat ≤ tick)
/-- A byte `x` of memory as a path of a core reads it, of which some writes, newest first, are not ordered before the read: the first that the path finds, or
what stood there before all of them; any value of a transform's output (R179, R213, R228). -/
def pastByte (c : CoreId) (q : Path) (tick p : Nat) : List Fresh → Byte → Byte
  | [], x => x
  | r :: rs, x =>
    if !r.holds p then pastByte c q tick p rs x
    else if r.anyVal then Config.freeBits 8 tick (2 ^ 60 * (8 * c.val + q.bit + 1) + p)
    else match r.early, r.visible c q tick p with
      | false, true => x
      | false, false => pastByte c q tick p rs (r.old.getD (p - r.a) x)
      | true, true => r.old.getD (p - r.a) x
      | true, false => pastByte c q tick p rs x
/-- The bytes of a read at `pa` that some writes are not ordered before. -/
def State.mixBytes (s : State) (c : CoreId) (q : Path) (rs : List Fresh) (pa : Nat) (b : List Byte) : List Byte :=
  b.zipIdx.map fun (x, i) => pastByte c q s.tick (pa + i) rs x
/-- The rows of an `mst` in progress, which other paths may find written or not (R142, R228). -/
def Core.storing (k : Core) (c : CoreId) : List Fresh :=
  match k.mtx with
  | none => []
  | some m =>
    match m.store with
    | none => []
    | some (p, n) => [⟨.mtx, m.ctx, none, m.no, 0, spadBase c + p, m.rows.flatMap fun r => leBytes n r.toNat, Path.mtx.others, .none, [], false, true⟩]
/-- The writes of a core that a read on a path that starts now is not ordered after, newest first (R228). -/
def Core.openFor (k : Core) (c : CoreId) (q : Path) : List Fresh := (k.storing c ++ k.recent).filter fun r => r.left.getLsbD q.bit
/-- Those that meet `n` bytes at a physical address. -/
def meeting (rs : List Fresh) (pa n : Nat) : List Fresh := rs.filter fun r => overlaps r.a r.old.length pa n
/-- The poisoned units that an engine reads: any value (R195; assumption 63). A core-slot load meets its poison as it lands. -/
def State.poisoned (s : State) (q : Path) (c : CoreId) (a n : Nat) : List Fresh :=
  if q = .core then []
  else (s.poison.filter fun u => decide (spadBase c ≤ u) && overlaps u 8 (spadBase c + a) n).map fun u => ⟨q, 0, none, 0, 0, u, .replicate 8 0, 0, .none, [], true, false⟩
/-- The value of `n` bytes at `pa` as a path of a core reads them, of which some writes are not ordered before the read. -/
def State.mixed (s : State) (c : CoreId) (q : Path) (rs : List Fresh) (pa n now : Nat) : Nat :=
  match rs with
  | [] => now
  | rs => leNat (s.mixBytes c q rs pa (leBytes n now))
/-- What a path reads of its core's scratchpad, but for the writes of other paths: the matrix unit finds the rows of its own `mst` in progress (R142), and the
transform unit its own outputs in their order (R179). -/
def State.spadNow (s : State) (q : Path) (c : CoreId) (a n : Nat) : Nat :=
  match q with
  | .xft => Memory.read s.mem (spadBase c + a) n
  | .mtx => leNat ((leBytes n (s.spadRead c a n)).zipIdx.map fun (x, i) =>
      (meeting ((s.core c).storing c) (spadBase c + a + i) 1).foldl (fun y r => r.old.getD (spadBase c + a + i - r.a) y) x)
  | _ => s.spadRead c a n
/-- A read of `n` scratchpad bytes on one path, given the writes it is not ordered after (R195, R228). -/
def State.spadReadPast (s : State) (rs : List Fresh) (q : Path) (c : CoreId) (a n : Nat) : Nat :=
  s.mixed c q (s.poisoned q c a n ++ meeting rs (spadBase c + a) n) (spadBase c + a) n (s.spadNow q c a n)
/-- A read of `n` scratchpad bytes on one path that starts now. -/
def State.spadReadOn (s : State) (q : Path) (c : CoreId) (a n : Nat) : Nat := s.spadReadPast ((s.core c).openFor c q) q c a n
/-- A write cut at the ends of a range: to the paths of `q`, what it replaced inside the range is past. -/
def Fresh.cut (r : Fresh) (a n : Nat) (q : BitVec 6) : List Fresh :=
  if overlaps r.a r.old.length a n then
    let lo := max r.a a
    let hi := min (r.a + r.old.length) (a + n)
    [{ r with old := r.old.take (lo - r.a) }, { r with a := lo, old := (r.old.drop (lo - r.a)).take (hi - lo), left := r.left &&& ~~~ q },
      { r with a := hi, old := r.old.drop (hi - r.a) }].filter fun x => !x.old.isEmpty && x.left != 0
  else [r]
/-- A write by a path is noted until it is ordered; its own path finds nothing older there (R213). One that goes on where the last one of the same step ended
joins it, and one that comes while an `xft.go` waits for its swap is not ordered before that transform either (R179). -/
def Core.noteFresh (k : Core) (r : Fresh) : Core :=
  let past (l : List Fresh) : List Fresh := l.flatMap fun x => x.cut r.a r.old.length (1#6 <<< r.path.bit)
  let written := k.xftBehind.filter fun x => !(x.early && x.no == r.no)
  { k with
    noted := k.noted + 1
    recent := match past k.recent with
      | x :: t => if x.a + x.old.length = r.a ∧ r.a % 8 = 0 ∧ { x with a := r.a, old := r.old, no := r.no } = r then { x with old := x.old ++ r.old } :: t else r :: x :: t
      | [] => [r]
    xftBehind := if r.path = .xft then past written else if k.eng1.swap.isSome then r :: written else written }
/-- The number of the next noted write of a core. -/
def Core.noteNo (k : Core) (c : CoreId) : Nat := k.noted * 512 + c.val
/-- Who writes: a path, the context whose access it is, what the write reports to, and its number where that was given before. -/
structure Writer where
  path : Path
  ctx : CtxId
  tells : Reports := .none
  no : Option Nat := none
deriving DecidableEq, Repr
/-- The task whose access a write is; what is delivered on the COLL path has none on its core, and neither has what is left of a task that was killed (R232). -/
def State.ownerOf (s : State) (c : CoreId) (x : CtxId) (q : Path) : Option Owner :=
  if q = .coll ∨ ((s.ctx c x).st = .retired ∧ (s.ctx c x).status ≠ .done) then none else (s.ctx c x).launch.map fun l => ⟨l, (s.ctx c x).group, (s.ctx c x).task.toNat, (s.ctx c x).dmem⟩
/-- A write that a path of a core is about to make at a physical address of this package is noted. -/
def State.noteOn (s : State) (w : Writer) (c : CoreId) (pa n : Nat) : State :=
  s.mapCore c fun k => k.noteFresh
    ⟨w.path, w.ctx, s.ownerOf c w.ctx w.path, w.no.getD (k.noteNo c), s.tick, pa, Memory.bytes s.mem pa n, w.path.others, w.tells, [], false, false⟩
/-- Bytes written to a core's own scratchpad on a path. -/
def State.spadWriteOn (s : State) (w : Writer) (c : CoreId) (a : Nat) (b : List Byte) : State := (s.noteOn w c (spadBase c + a) b.length).spadWrite c a b
/-- The covered writes come before the reads on the paths of `q`, which then find nothing older there (R213, R225): neither what they replaced, nor what
earlier writes of other paths had replaced. The writes stand newest first. -/
def settled (covered : Fresh → Bool) (q : BitVec 6) (l : List Fresh) : List Fresh :=
  (l.foldl (fun (done, rs) r =>
    let parts := rs.foldl (fun l (a, n) => l.flatMap fun x => x.cut a n q) [r]
    if covered r then (done ++ (parts.map fun x => { x with left := x.left &&& ~~~ q }).filter (fun x => x.left != 0), (r.a, r.old.length) :: rs)
    else (done ++ parts, rs)) (([] : List Fresh), ([] : List (Nat × Nat)))).1
/-- The covered writes of a core come before the reads on the paths of `q`. -/
def Core.settle (k : Core) (covered : Fresh → Bool) (q : BitVec 6) : Core := { k with recent := settled covered q k.recent }
/-- A write on no path of the core that every path observes from now on (R359). -/
def Core.settleRange (k : Core) (pa n : Nat) : Core := { k with recent := k.recent.flatMap fun r => r.cut pa n (BitVec.allOnes 6) }
/-- An `xfence` of a context orders its writes on the paths of `p`, or the transfers that it has observed complete, before the reads on the paths of `q`
(R225). -/
def Core.order (k : Core) (x : CtxId) (p q : BitVec 6) : Core :=
  k.settle (fun r => p.getLsbD r.path.bit && (match r.path with | .core | .nb => r.ctx == x | .mtx => true | _ => r.seen.any fun o => o.1 == x)) q
/-- The transfer of a noted write is complete: its command has left the queue. (The outputs of a transform are noted as it ends.) -/
def Core.isOver (k : Core) (r : Fresh) : Bool :=
  match r.tells.cmd with
  | some t => !(k.copyq.any fun q => q.tag == t)
  | none => true
/-- A context observes a complete transfer (R227). -/
def Fresh.seenBy (r : Fresh) (x : CtxId) (tick : Nat) : Fresh := if r.seen.any fun o => o.1 == x then r else { r with seen := (x, tick) :: r.seen }
/-- A phase of a barrier ends: the complete transfers that report to the barrier have reported to a phase that is over (R315). -/
def Core.endPhase (k : Core) (bar : Nat) : Core :=
  { k with recent := k.recent.map fun r => if k.isOver r then { r with tells := { r.tells with bars := r.tells.bars.map fun b => (b.1, b.2 || b.1 == bar) } } else r }
/-- A complete transfer that has reported to a phase of a barrier that is over (R315). -/
def Core.reported (k : Core) (bar : Nat) (r : Fresh) : Bool := r.tells.bars.any (fun b => b.1 == bar && b.2) && k.isOver r
/-- A context observes the complete transfers of the phases of a barrier that are over (R227, R315). -/
def Core.observe (k : Core) (x : CtxId) (tick bar : Nat) : Core :=
  { k with recent := k.recent.map fun r => if k.reported bar r then r.seenBy x tick else r }
/-- A fired arm observes for its context the transfers whose scoreboard bits it saw, and a wait on its own barrier inherits them (R227, R319). -/
def Core.observeBits (k : Core) (x : CtxId) (tick board first count bar : Nat) : Core :=
  { k with recent := k.recent.map fun r => match r.tells.sb with
    | some (j, b) => if j = board ∧ first ≤ b ∧ b < first + count ∧ k.isOver r then { r.seenBy x tick with tells := { r.tells with bars := (bar, false) :: r.tells.bars } } else r
    | none => r }
/-- A context observes that an engine is idle (R227). -/
def Core.observeIdle (k : Core) (x : CtxId) (tick : Nat) (e : Eng) : Core :=
  let mine (r : Fresh) : Bool := (match e, r.path with | .copy, .copy | .xft, .xft | .xpose, .coll => true | _, _ => false) && k.isOver r
  { k with recent := k.recent.map fun r => if mine r then r.seenBy x tick else r }
/-- A completing `tbwait`: the transfers of the barrier's phases that are over come before every path (R227, R315). -/
def Core.orderBarrier (k : Core) (bar : Nat) : Core := k.settle (k.reported bar) (BitVec.allOnes 6)
/-- The writes of a task are no member's any more (R229, R232). -/
def Core.disown (k : Core) (x : CtxId) (launch task : Nat) : Core :=
  { k with recent := k.recent.map fun r => if r.ctx = x ∧ r.owner.any fun o => o.launch == launch && o.task == task then { r with owner := none } else r }
/-- A `dbar` that ends a communication phase orders what its members have done or received, on every path (R229). -/
def Core.orderAll (k : Core) (mine : Fresh → Bool) : Core := k.settle (fun r => mine r && k.isOver r) (BitVec.allOnes 6)

/-- Bytes written at a physical address of this package; a write into a scratchpad is noted there. -/
def State.memWrite (s0 : State) (pa : Nat) (b : List Byte) : State :=
  if h : 0x010000000000 ≤ pa ∧ (pa - 0x010000000000) / 0x200000 < 512 then
    s0.spadWrite ⟨(pa - 0x010000000000) / 0x200000, h.2⟩ ((pa - 0x010000000000) % 0x200000) b
  else
    let s := s0.noteWatch pa b.length
    { s with mem := Memory.setBytes s.mem pa b, poison := unpoison s.poison pa b.length }
/-- Bytes read at a physical address of this package. -/
def State.memRead (s : State) (pa n : Nat) : Nat :=
  if h : 0x010000000000 ≤ pa ∧ (pa - 0x010000000000) / 0x200000 < 512 then
    s.spadRead ⟨(pa - 0x010000000000) / 0x200000, h.2⟩ ((pa - 0x010000000000) % 0x200000) n
  else Memory.read s.mem pa n

/-- Copies `n` bytes of memory from one place to another, as read beforehand. -/
def State.memCopy (s : State) (dst src n : Nat) : State := s.memWrite dst (Memory.bytes s.mem src n)

/-! ### In-flight results and register reads -/

/-- A destination is unsettled to a bundle of a later cycle until its bound has elapsed (R6, R68, R69). -/
def Core.unsettled (k : Core) (x : CtxId) (d : Dest) : Bool :=
  k.inflight.any fun e => e.ctx == x && e.dest == d && decide (e.issued < k.cycle) && decide (k.cycle < e.due)

/-- Tells apart the open values of one step: the slot and the operand within it. -/
def State.useNo (s : State) (port : Nat) : Nat := s.issue.slot.val * 64 + port

/-- A scalar source: `s0` reads as zero (R64); an unsettled one reads as any value (R92; assumption 3). -/
def State.readS (s : State) (r : SReg) (port : Nat) : Word :=
  if r = 0 then 0
  else if s.me.unsettled s.issue.ctx (.s r) then Config.freeBits 64 s.tick (s.useNo port)
  else s.my.s[r]
def State.readP (s : State) (r : PReg) (port : Nat) : Word :=
  if s.me.unsettled s.issue.ctx (.p r) then Config.freeBits 64 s.tick (s.useNo port) else s.my.p[r]
def State.readV (s : State) (r : VNum) (port : Nat) : VWord :=
  if s.me.unsettled s.issue.ctx (.v r) then Config.freeBits 2048 s.tick (s.useNo port) else s.my.v[r]
def State.readSc (s : State) (r : Fin 8) (port : Nat) : BitVec 512 :=
  if s.me.unsettled s.issue.ctx (.sc r) then Config.freeBits 512 s.tick (s.useNo port) else s.my.sc[r]

/-- `%ctx` as `rdsp` reads it (R84). -/
def ctxWord (c : Ctx) (x : CtxId) : Word := BitVec.ofNat 64 (c.grd.toNat * 16 + c.nm1.toNat * 4 + x.val)

/-- The stored value of a special register (R84). -/
def Ctx.spec (c : Ctx) (k : CoreId) (x : CtxId) : SpecReg → Word
  | .ctx => ctxWord c x
  | .core => BitVec.ofNat 64 k.val
  | .task => c.task.setWidth 64
  | .dmem => c.dmem
  | .fmtn => c.fmtn.setWidth 64
  | .tol => c.tol
  | .rseed => c.rseed
  | .rpos => c.rpos
  | .pts => c.pts
  | .lease => c.lease.setWidth 64

/-- The bits a special register implements (R84). -/
def specWidth : SpecReg → Nat
  | .ctx => 5
  | .core => 9
  | .task => 24
  | .fmtn => 5
  | .lease => 16
  | _ => 64

def State.readSpec (s : State) (r : SpecReg) (port : Nat) : Word :=
  if s.me.unsettled s.issue.ctx (.spec r) then
    BitVec.ofNat 64 ((Config.freeBits 64 s.tick (s.useNo port)).toNat % 2 ^ specWidth r)
  else s.my.spec s.issue.core s.issue.ctx r

/-- A result that this bundle's slot will land `bound` cycles after its issue (R68). -/
def State.writeDest (s : State) (d : Dest) (bound : Nat) (v : VWord) : State :=
  s.mapMe fun k => { k with inflight := k.inflight ++ [⟨s.issue.ctx, d, k.cycle, k.cycle + bound, false, false, some v, none, none, []⟩] }
/-- A scalar result; writes to `s0` are discarded (R64). -/
def State.writeS (s : State) (r : SReg) (bound : Nat) (v : Word) : State := if r = 0 then s else s.writeDest (.s r) bound (v.setWidth 2048)
def State.writeP (s : State) (r : PReg) (bound : Nat) (v : Word) : State := s.writeDest (.p r) bound (v.setWidth 2048)
def State.writeV (s : State) (r : VNum) (bound : Nat) (v : VWord) : State := s.writeDest (.v r) bound v
def State.writeSc (s : State) (r : Fin 8) (bound : Nat) (v : BitVec 512) : State := s.writeDest (.sc r) bound (v.setWidth 2048)
def State.writeSpec (s : State) (r : SpecReg) (bound : Nat) (v : Word) : State := s.writeDest (.spec r) bound (v.setWidth 2048)

/-- A value reaching a context's destination (R68). -/
def Ctx.land (c : Ctx) (d : Dest) (v : VWord) : Ctx :=
  match d with
  | .s r => if r = 0 then c else { c with s := c.s.set r.val (v.setWidth 64) r.isLt }
  | .p r => { c with p := c.p.set r.val (v.setWidth 64) r.isLt }
  | .v r => { c with v := c.v.set r.val v r.isLt }
  | .sc r => { c with sc := c.sc.set r.val (v.setWidth 512) r.isLt }
  | .spec .tol => { c with tol := v.setWidth 64 }
  | .spec .rseed => { c with rseed := v.setWidth 64 }
  | .spec .rpos => { c with rpos := v.setWidth 64 }
  | .spec .lease => { c with lease := v.setWidth 16 }
  | .spec _ => c
  | .nothing => c

/-! ### Faults of a slot, and taking a trap -/

/-- A slot's first failing check: code, addr and info of its record (R74, R356). -/
structure Flt where
  code : Nat
  addr : Word
  info : Word
deriving DecidableEq, Repr

/-- The byte address 4 words further, in the 18-bit PC (R57). Assumption 15. -/
def pcPlus (pc : BitVec 18) (words : Nat) : BitVec 18 := pc + BitVec.ofNat 18 (4 * words)

/-- The next free place of a cluster's trap queue, or none: 32 records (R235). -/
def TrapQueue.full (q : TrapQueue) : Bool := decide (32 ≤ q.records.length)

/-- A record of the queue that waits for the new handler (R416). -/
def TrapQueue.isLate (q : TrapQueue) (f : Record → Bool) : Bool := (q.records.drop (q.records.length - q.late)).any f

/-- A performance counter grows (R327). Assumption 21. -/
def Core.count (k : Core) (i n : Nat) : Core := { k with perf := k.perf.setIfInBounds i (k.perf.toList.getD i 0 + BitVec.ofNat 64 n) }
/-- An interrupt of a die: MSI-X vector 8d + k on the die's own port when that is an endpoint, otherwise on the other (R401). Assumption 42. -/
def State.interrupt (s : State) (d : DieId) (k : Nat) : State :=
  { s with out := s.out ++ [.irq (8 * d.val + k) (if (if d = 0 then s.pkg.m0 else s.pkg.m1) then (if d = 0 then 1 else 0) else d)] }

/-- A record enters the trap queue with the next sequence number (R356, R357); the core counts it (R327). One placed while a new handler
waits for its commit point is for that handler (R416). Assumption 50. -/
def State.placeRecord (s : State) (r : Record) : State :=
  let q := s.trapQ r.core.cluster
  (s.mapCore r.core fun k => k.count 15 1).setTrapQ r.core.cluster { q with
    records := q.records ++ [{ r with seq := q.seq }], late := q.late + s.pkg.fw.waitHandler.toNat, seq := q.seq + 1, tail := q.tail + 1 }

/-- TAKING A TRAP (R357): the record of a src 0 or 1 event goes to the cluster's trap queue, and the core is frozen from now until RCTL is
written; with no free place the core waits for one, frozen (R235, R354). `words` is the bundle record (R358). -/
def State.takeTrap (s : State) (r : Record) (words : List Word32) : State :=
  if (s.trapQ r.core.cluster).full then s.mapCore r.core fun k => { k with record := some ⟨r, false, words⟩ }
  else (s.placeRecord r).mapCore r.core fun k => { k with record := some ⟨{ r with seq := (s.trapQ r.core.cluster).seq }, true, words⟩ }

/-- The record of a fault of the bundle being issued (R356). -/
def State.bundleRecord (s : State) (smask : BitVec 8) (src : BitVec 3) (code : Nat) (addr info : Word) : Record :=
  ⟨0, s.issue.core, s.issue.ctx, smask, src, BitVec.ofNat 8 code, pcPlus s.issue.pc s.issue.len, s.issue.pc, addr, info⟩

/-- The bundle faults: a src 0 record with the given mask (R74, R357). -/
def State.bundleFault (s : State) (smask : BitVec 8) (code : Nat) (addr info : Word) : State :=
  s.takeTrap (s.bundleRecord smask 0 code addr info) s.issue.words

/-- One slot faults: the record of the bundle as if no other slot did; `issue.faults` keeps it so that a whole bundle can merge its slots (R74). -/
def State.slotFault (s : State) (f : Flt) : State :=
  (s.bundleFault (1#8 <<< s.issue.slot.val) f.code f.addr f.info).mapIssue fun i =>
    { i with faults := [⟨s.issue.slot, BitVec.ofNat 8 f.code, f.addr, f.info⟩] }

/-- THE RETURN FROM A TRAP (R360): the record is served, the core runs on. -/
def State.endRecord (s : State) (c : CoreId) : State := s.mapCore c fun k => { k with record := none }

/-! ### Fault codes (R365) -/

namespace Code
def trap : Nat := 0x01
def sys : Nat := 0x02
def freezeTimeout : Nat := 0x03
def memPoison : Nat := 0x04
def illegalBundle : Nat := 0x08
def badTarget : Nat := 0x09
def illegalOp : Nat := 0x0A
def accNotOwned : Nat := 0x10
def scratchRange : Nat := 0x11
def mtxAlign : Nat := 0x12
def bankGroup : Nat := 0x13
def handleInvalid : Nat := 0x14
def handleFormat : Nat := 0x15
def handleUnsealed : Nat := 0x16
def seedDesc : Nat := 0x17
def fmtnInvalid : Nat := 0x18
def xftParam : Nat := 0x19
def memAlign : Nat := 0x20
def vaRange : Nat := 0x21
def pageFault : Nat := 0x22
def pteFormat : Nat := 0x23
def pteClass : Nat := 0x24
def classRefused : Nat := 0x25
def sealedWrite : Nat := 0x26
def paUnmapped : Nat := 0x27
def guardForbidden : Nat := 0x28
def copyParam : Nat := 0x30
def xposeParam : Nat := 0x31
def chanInvalid : Nat := 0x32
def chanRole : Nat := 0x33
def chanShape : Nat := 0x34
def sbParam : Nat := 0x35
def sbArmsFull : Nat := 0x36
def domainUndeclared : Nat := 0x37
def engineFault : Nat := 0x38
def handlerTimeout : Nat := 0x3C
def killRequest : Nat := 0x3D
/-- No fault code: a slot needs a walk of the address that stands in `addr` (R206). -/
def needWalk : Nat := 0x100
end Code

/-! ### Running a slot -/

/-- Bit 0 of the guarding predicate, exclusive-or neg; pred = 0 always executes (R63). -/
def State.guard (s : State) : Guard → Bool
  | .always => true
  | .on r neg => (s.readP r 63).getLsbD 0 != neg

/-- The bundle waits, its core frozen, and is tried again (R354; assumption 17). -/
def State.wait (s : State) (f : FreezeCause) : State := s.mapIssue fun i => { i with waits := some f }
/-- What stops a slot: its fault, or the walk of an address that it needs, for which its core freezes (R206). -/
def State.slotStop (s : State) (f : Flt) : State :=
  if f.code = Code.needWalk then (s.wait .walk).mapIssue fun i => { i with walks := i.walks ++ [f.addr.toNat] } else s.slotFault f

/-- A scalar slot: with its guard false it does nothing (R63); otherwise it takes effect, faults, or waits for a walk. -/
def runSlot (g : Guard) (s : State) (f : State → Except Flt State) : Out :=
  if s.guard g then
    match f s with
    | .ok t => .next t
    | .error e => .next (s.slotStop e)
  else .next s

/-- A scalar slot that cannot fault. -/
def plainSlot (g : Guard) (s : State) (f : State → State) : Out := .next (if s.guard g then f s else s)

/-- A check of a slot (R197): continue when it holds, or fault with the code and the address. -/
def require (ok : Bool) (code : Nat) (addr : Word) : Except Flt Unit := if ok then .ok () else .error ⟨code, addr, 0⟩

/-- The bundle blocks (R18). -/
def State.block (s : State) (b : BlockOn) : State := s.mapIssue fun i => { i with blocked := some b }
/-- A store that reaches scratchpad when the bundle commits (R67). -/
def State.stage (s : State) (x : Staging) : State := s.mapIssue fun i => { i with stores := i.stores ++ [x] }


end Sys2Proof.Machine
end

