-- ==== Sys2Proof/Machine/Translate.lean ====
section
/-!
DEFINITION. Sys2Proof/Machine/Translate.lean: the physical address map (R184 to R187, R191, R303, R304), page walks and kept translations (R276 to
R282).
-/
namespace Sys2Proof.Machine

/-! ### The physical map -/

def hbmEnd : Nat := 0x8000000000
def sramBase : Nat := 0x014000000000
def peerBase : Nat := 0x030000000000
def tierBase : Nat := 0x040000000000
def windowBit : Nat := 0x8000000000000
/-- The bytes of a remote package that its window reaches (R185). -/
def windowEnd : Nat := 0x020000000000

/-- This package's index within its group (R377). -/
def State.ownIndex (s : State) : Nat := s.pkg.fabid.toNat % 1024
/-- A window address naming this package itself is the local address at its offset (R185). -/
def State.localPa (s : State) (pa : Nat) : Nat := if windowBit ≤ pa ∧ bits pa 41 10 = s.ownIndex then pa % 2 ^ 41 else pa

/-- The memory class that R184 and R185 give an address; none where they assign nothing. -/
def regionClass (pa : Nat) : Option MemClass :=
  if pa < hbmEnd then some .hbm
  else if 0x010000000000 ≤ pa ∧ pa < 0x010040000000 then some .onchip
  else if sramBase ≤ pa ∧ pa < sramBase + 0x40000000 then some .onchip
  else if peerBase ≤ pa ∧ pa < tierBase then some .peer
  else if tierBase ≤ pa ∧ pa < 0x080000000000 then some .tier
  else if windowBit ≤ pa ∧ pa < 2 ^ 52 then some .remote
  else none
def State.classAt (s : State) (pa : Nat) : Option MemClass := regionClass (s.localPa pa)

/-- Enabled HBM stacks of a die (R405, R406). -/
def State.stacks (s : State) (d : DieId) : Nat := ((List.range 4).filter fun i => s.pkg.hbm.getLsbD (4 * d.val + i)).length
/-- Within the HBM that the enabled stacks map (R278, R406). Assumption 55. -/
def State.localHbm (s : State) (pa : Nat) : Bool :=
  decide (pa < hbmEnd) && decide (pa % 2 ^ 38 < s.stacks (if bit pa 38 then 1 else 0) * 2 ^ 36)
def clusterOf (pa : Nat) : Nat := (pa - sramBase) / 0x1000000

/-- The peer-window entry of an address of the peer windows (R303). -/
def State.peerEntry (s : State) (pa : Nat) : PeerEntry := s.pkg.pwt[(pa - peerBase) / 2 ^ 32 % 256]'(Nat.mod_lt _ (by decide))
/-- A host port that reaches PCI Express peers: no CXL memory host, link up (R304). -/
def State.portUp (s : State) (port : Bool) : Bool := if port then !s.pkg.m1 && s.pkg.g1 != 0 else !s.pkg.m0 && s.pkg.g0 != 0
/-- The conditions of R304 on an access at a slot offset. -/
def State.peerOk (s : State) (pa : Nat) : Bool :=
  let e := s.peerEntry pa
  e.v && decide (pa % 2 ^ 32 < (e.size.toNat + 1) * 4096) && s.portUp e.port

/-- A peer's completion with an error status sets the err bit of its window, and raises its interrupt (R202, R303, R401). -/
def State.peerError (s : State) (pa : Nat) : State :=
  (s.mapPkg fun p => { p with pwt := p.pwt.setIfInBounds ((pa - peerBase) / 2 ^ 32 % 256) { s.peerEntry pa with err := true } }).interrupt
    (if (s.peerEntry pa).port then 1 else 0) 6

/-- A physical address is assigned (R186). -/
def State.assigned (s : State) (pa : Nat) : Bool :=
  match s.classAt pa with
  | some .hbm => s.localHbm (s.localPa pa)
  | some .onchip =>
    let q := s.localPa pa
    if q < sramBase then
      (if h : (q - 0x010000000000) / 0x200000 < 512 then s.coreEnabled ⟨(q - 0x010000000000) / 0x200000, h⟩ else false)
    else decide (clusterOf q % 8 < 6) && s.fieldEnabled (clusterOf q / 32) (clusterOf q / 8 % 4)
  | some .peer => s.peerOk pa
  | some .tier => s.pkg.tkind != 0 && decide (pa - tierBase < s.pkg.tier.toNat * 2 ^ 30)
  | some .remote => decide (pa % 2 ^ 41 < windowEnd) && Config.packagePresent (bits pa 41 10)
  | none => false

/-- The home die of a local address (R184). -/
def State.homeDie (s : State) (pa : Nat) : DieId :=
  let q := s.localPa pa
  let one := match regionClass q with
    | some .hbm => bit q 38
    | some .onchip => if q < sramBase then decide (256 ≤ (q - 0x010000000000) / 0x200000) else decide (32 ≤ clusterOf q)
    | some .peer => (s.peerEntry q).port
    | some .tier => bit q 16
    | _ => false
  if one then 1 else 0

/-- The bank of a superblock on its home die (R191). -/
def bankOf (pa : Nat) : Nat := 512 * (pa / 2 ^ 18 % 3) + bits pa 9 9

/-! ### Walks (R278) -/

def classCode : Nat → Option MemClass
  | 0 => some .hbm
  | 1 => some .tier
  | 2 => some .peer
  | 3 => some .remote
  | 4 => some .onchip
  | _ => none

/-- The walk's failure: its code, with the level of the failing entry in `info` (R356). -/
def walkFault (code level : Nat) (va : Nat) : Flt := ⟨code, BitVec.ofNat 64 va, BitVec.ofNat 64 level⟩

/-- A leaf entry at a level, checked (R278). -/
def State.leaf (s : State) (asid : BitVec 14) (va p level : Nat) : Except Flt Kept :=
  let size := if level = 1 then 2 ^ 29 else 2 ^ 16
  let base := bits p 16 36 * 2 ^ 16
  if level = 0 ∨ base % size ≠ 0 then .error (walkFault Code.pteFormat level va)
  else
    match classCode (bits p 59 3) with
    | none => .error (walkFault Code.pteClass level va)
    | some cls =>
      if bits p 56 2 = 3 ∨ s.classAt base ≠ some cls ∨ ((cls = .peer ∨ cls = .onchip) ∧ bits p 56 2 ≠ 2) then .error (walkFault Code.pteClass level va)
      else .ok ⟨asid, va / size * size, size, base, cls, bit p 58, BitVec.ofNat 2 (bits p 56 2), bit p 55⟩

/-- The levels of the walk from table page `t`; `fuel` is the number of levels left, level = 3 - fuel. -/
def State.walkFrom (s : State) (asid : BitVec 14) (va t : Nat) : Nat → Except Flt Kept
  | 0 => .error (walkFault Code.pteFormat 2 va)
  | fuel + 1 =>
    let level := 2 - fuel
    let p := Memory.read s.mem (t + 8 * bits va (42 - 13 * level) 13) 8
    if !bit p 63 then .error (walkFault Code.pageFault level va)
    else if bits p 52 3 ≠ 0 then .error (walkFault Code.pteFormat level va)
    else if bit p 62 then s.leaf asid va p level
    else
      let next := bits p 16 36 * 2 ^ 16
      if level = 2 ∨ bits p 55 7 ≠ 0 ∨ !s.localHbm next then .error (walkFault Code.pteFormat level va)
      else s.walkFrom asid va next fuel

/-- A walk for an ASID of a die and a virtual address (R278). R273 has the address-space table lie in HBM homed on the die and gives no outcome where it does
not: that a table in the other die's HBM is read like any other is the model's choice, assumption 55. -/
def State.walk (s : State) (d : DieId) (asid : BitVec 14) (va : Nat) : Except Flt Kept :=
  let at_ := bits (s.die d).asbase.toNat 16 36 * 2 ^ 16 + 16 * asid.toNat
  if !s.localHbm at_ then .error (walkFault Code.pteFormat 3 va)
  else
    let e := Memory.read s.mem at_ 8
    let root := bits e 16 36 * 2 ^ 16
    if !bit e 63 then .error (walkFault Code.pageFault 3 va)
    else if bits e 52 11 ≠ 0 ∨ bits e 0 16 ≠ 0 ∨ Memory.read s.mem (at_ + 8) 8 ≠ 0 ∨ !s.localHbm root then .error (walkFault Code.pteFormat 3 va)
    else s.walkFrom asid va root 3

/-! ### Translation with kept results (R281) -/

/-- Page walkers of a die (R280). -/
def walkers : Nat := 128

/-- A kept translation serves a virtual address of an address space. -/
def Kept.covers (k : Kept) (asid : BitVec 14) (va : Nat) : Bool := (k.glob || k.asid == asid) && decide (k.va ≤ va) && decide (va < k.va + k.size)

/-- Which kept translation an access uses, if any: where they differ from what a walk would give, either may be used (R281; assumption 12). -/
def pickKept (tick use : Nat) (w : Option Kept) : List Kept → Option Kept
  | [] => none
  | k :: t => if w = some k || Config.freeChoice tick use then some k else pickKept tick (use + 1) w t
/-- The kept translation that an access of a die uses, if it uses one. -/
def State.keptFor (s : State) (d : DieId) (asid : BitVec 14) (va use : Nat) : Option Kept :=
  pickKept s.tick use (s.walk d asid va).toOption ((s.die d).tlb.filter fun k => k.covers asid va)

/-- Keeps a completed translation (R281). -/
def Die.keep (d : Die) (k : Kept) : Die := if d.tlb.contains k then d else { d with tlb := k :: d.tlb }

/-- The translation of a virtual address for an engine, staging or Patante, which walks in its own event, and the state with the result kept (R281). -/
def State.translate (s : State) (d : DieId) (asid : BitVec 14) (va use : Nat) : Except Flt (Kept × State) :=
  match s.keptFor d asid va use with
  | some k => .ok (k, s)
  | none =>
    match s.walk d asid va with
    | .ok k => .ok (k, s.mapDie d fun x => x.keep k)
    | .error e => .error e
/-- As `translate`, where a free walker is needed: with all of them busy the requester waits (R280). -/
def State.translateFree (s : State) (d : DieId) (asid : BitVec 14) (va use : Nat) : Except Flt (Kept × State) :=
  if (s.keptFor d asid va use).isNone && decide (walkers ≤ (s.die d).walks.length) then .error ⟨Code.needWalk, BitVec.ofNat 64 va, 0⟩ else s.translate d asid va use
/-- The physical address a translation gives. -/
def Kept.paOf (k : Kept) (va : Nat) : Nat := k.pa + (va - k.va)

/-! ### Invalidation ranges (R282) -/

/-- The first byte of an invalidation's range and the first past it, in whole 64 KiB pages; length 0 means the whole virtual space (R273, R282). -/
def InvRange.span (r : InvRange) : Nat × Nat :=
  let lo := r.va.toNat / 65536 * 65536
  if r.len = 0 then (0, 2 ^ 64) else (lo, lo + (r.len.toNat + 65535) / 65536 * 65536)
/-- The range covers `n` bytes at `va` of an address space, or of a global page. -/
def InvRange.meets (r : InvRange) (asid : BitVec 14) (glob : Bool) (va n : Nat) : Bool :=
  r.all || ((if glob then r.g else r.asid == asid) && decide (va < r.span.2) && decide (r.span.1 < va + n))
/-- The range covers a kept translation (R282). -/
def InvRange.covers (r : InvRange) (k : Kept) : Bool := r.meets k.asid k.glob k.va k.size

/-! ### Page walkers (R280) -/

/-- A walk that a bundle asks for: a free walker takes it; with none free the request waits, and the bundle asks again (R280). -/
def State.requestWalk (s : State) (c : CoreId) (x : CtxId) (asid : BitVec 14) (va : Nat) : State :=
  s.mapDie c.die fun d =>
    if walkers ≤ d.walks.length ∨ d.walks.any fun w => w.core == c && w.ctx == x && w.asid == asid && w.va == va then d
    else { d with walks := d.walks ++ [⟨c, x, asid, va, false⟩] }
/-- The end of a walk reaches the core whose bundle still waits for it (R206). -/
def State.answerWalk (s : State) (w : Walk) (r : Except Flt Kept) : State :=
  s.mapCore w.core fun k =>
    if k.freeze.any fun f => f.cause == .walk && f.ctx == w.ctx then
      { k with walked := k.walked ++ [match r with
        | .ok t => ⟨w.ctx, w.asid, w.va, some t, 0, 0⟩
        | .error e => ⟨w.ctx, w.asid, w.va, none, e.code, e.info.toNat⟩] }
    else k
/-- PAGE_WALK: the walks of one address space and address end, merged into one (R280); its result may be kept (R281), except where an invalidation of its
range has started since one of them began (R282). -/
def execPageWalk (d : DieId) (asid : BitVec 14) (va : BitVec 55) (s : State) : Out :=
  let mine := (s.die d).walks.filter fun w => w.asid == asid && w.va % 2 ^ 55 == va.toNat
  let r := s.walk d asid va.toNat
  let s := s.mapDie d fun x =>
    let x := { x with walks := x.walks.filter fun w => !(w.asid == asid && w.va % 2 ^ 55 == va.toNat) }
    match r with
    | .ok k => if x.invBusy && x.invRun.covers k && mine.any (·.old) then x else x.keep k
    | .error _ => x
  .next (mine.foldl (fun t w => t.answerWalk w r) s)

end Sys2Proof.Machine
end

