-- ==== Sys2Proof/Machine/Float.lean ====
section
/-!
DEFINITION. Sys2Proof/Machine/Float.lean: the number formats of chapter 02. A value of an IEEE format is an exact dyadic number (or an infinity, or
NaN); every operation is exact on such values and is rounded once at the end (R37). SX blocks (R44 to R46) and the correctly rounded special
functions (R136, R137) and twiddles (R170) rest on the same values.
-/
namespace Sys2Proof.Machine

/-- An IEEE 754 binary interchange format (R35): exponent bits and trailing significand bits. -/
structure FpFmt where
  ebits : Nat
  mbits : Nat
deriving DecidableEq, Repr

def fp64 : FpFmt := ⟨11, 52⟩
def fp32 : FpFmt := ⟨8, 23⟩
def fp16 : FpFmt := ⟨5, 10⟩
def bf16 : FpFmt := ⟨8, 7⟩

def FpFmt.width (f : FpFmt) : Nat := 1 + f.ebits + f.mbits
def FpFmt.bias (f : FpFmt) : Int := 2 ^ (f.ebits - 1) - 1
/-- The exponent of the least significant bit of a subnormal. -/
def FpFmt.qmin (f : FpFmt) : Int := 1 - f.bias - f.mbits
/-- The canonical NaN (R35, R36). -/
def FpFmt.nanBits (f : FpFmt) : Nat := (2 ^ f.ebits - 1) * 2 ^ f.mbits + 2 ^ (f.mbits - 1)
def FpFmt.infBits (f : FpFmt) (neg : Bool) : Nat := (if neg then 2 ^ (f.ebits + f.mbits) else 0) + (2 ^ f.ebits - 1) * 2 ^ f.mbits
def FpFmt.maxBits (f : FpFmt) (neg : Bool) : Nat := f.infBits neg - 1
/-- The bits of 1.0. -/
def FpFmt.oneBits (f : FpFmt) : Nat := f.bias.toNat * 2 ^ f.mbits

/-- An exact value: NaN, an infinity, or (-1)^neg * m * 2^e; a zero keeps its sign (R39). -/
inductive Fp where
  | nan
  | inf (neg : Bool)
  | fin (neg : Bool) (m : Nat) (e : Int)
deriving DecidableEq, Repr

namespace Fp

/-- The value of an encoding (R35). -/
def ofBits (f : FpFmt) (b : Nat) : Fp :=
  let man := b % 2 ^ f.mbits
  let ex := b / 2 ^ f.mbits % 2 ^ f.ebits
  let neg := b / 2 ^ (f.mbits + f.ebits) % 2 == 1
  if ex = 2 ^ f.ebits - 1 then (if man = 0 then .inf neg else .nan)
  else if ex = 0 then .fin neg man f.qmin
  else .fin neg (2 ^ f.mbits + man) (f.qmin + ex - 1)

/-- m / 2^sh rounded to an integer (R37, R132). -/
def roundShift (r : RMode) (neg : Bool) (m sh : Nat) : Nat :=
  let n := m / 2 ^ sh
  let rem := m % 2 ^ sh
  let up := match r with
    | .rn => 2 * rem > 2 ^ sh || (2 * rem == 2 ^ sh && n % 2 == 1)
    | .rz => false
    | .ru => rem != 0 && !neg
    | .rd => rem != 0 && neg
  if up then n + 1 else n

/-- m * 2^e as an integer, rounded. -/
def roundScaled (r : RMode) (neg : Bool) (m : Nat) (e : Int) : Nat :=
  if 0 ≤ e then m * 2 ^ e.toNat else roundShift r neg m (-e).toNat

/-- The result on overflow (R37, R132). -/
def overflowBits (f : FpFmt) (r : RMode) (neg : Bool) : Nat :=
  match r with
  | .rn => f.infBits neg
  | .rz => f.maxBits neg
  | .ru => if neg then f.maxBits neg else f.infBits neg
  | .rd => if neg then f.infBits neg else f.maxBits neg

/-- (-1)^neg * m * 2^e rounded once to the format (R37). -/
def pack (f : FpFmt) (r : RMode) (neg : Bool) (m : Nat) (e : Int) : Nat :=
  let sign := if neg then 2 ^ (f.ebits + f.mbits) else 0
  if m = 0 then sign else
    let q := max f.qmin (e + m.log2 - f.mbits)
    let n := roundScaled r neg m (e - q)
    let carry := n == 2 ^ (f.mbits + 1)
    let n := if carry then 2 ^ f.mbits else n
    let q := if carry then q + 1 else q
    if n < 2 ^ f.mbits then sign + n
    else
      let ex := (q - f.qmin + 1).toNat
      if ex ≥ 2 ^ f.ebits - 1 then overflowBits f r neg
      else sign + ex * 2 ^ f.mbits + (n - 2 ^ f.mbits)

/-- An exact value rounded once to a format; a NaN gives the canonical one (R36, R37). -/
def round (f : FpFmt) (r : RMode) : Fp → Nat
  | .nan => f.nanBits
  | .inf neg => f.infBits neg
  | .fin neg m e => pack f r neg m e

def isNan : Fp → Bool
  | .nan => true
  | _ => false
def isZero : Fp → Bool
  | .fin _ m _ => m == 0
  | _ => false
def isInf : Fp → Bool
  | .inf _ => true
  | _ => false
def sign : Fp → Bool
  | .nan => false
  | .inf n => n
  | .fin n _ _ => n
def neg : Fp → Fp
  | .nan => .nan
  | .inf n => .inf (!n)
  | .fin n m e => .fin (!n) m e
def abs : Fp → Fp
  | .nan => .nan
  | .inf _ => .inf false
  | .fin _ m e => .fin false m e
def zero : Fp := .fin false 0 0
def ofInt (i : Int) : Fp := .fin (i < 0) i.natAbs 0

/-- The numerator of a finite value over 2^e, for e at most its exponent. -/
def numer (neg : Bool) (m : Nat) (e at_ : Int) : Int :=
  let n : Int := m * 2 ^ (e - at_).toNat
  if neg then -n else n

/-- The exact sum (R37, R39). -/
def add : Fp → Fp → Fp
  | .nan, _ => .nan
  | _, .nan => .nan
  | .inf a, .inf b => if a == b then .inf a else .nan
  | .inf a, .fin .. => .inf a
  | .fin .., .inf b => .inf b
  | .fin n1 m1 e1, .fin n2 m2 e2 =>
    if m1 = 0 ∧ m2 = 0 then .fin (n1 && n2) 0 0
    else if m1 = 0 then .fin n2 m2 e2
    else if m2 = 0 then .fin n1 m1 e1
    else
      let e := min e1 e2
      let s := numer n1 m1 e1 e + numer n2 m2 e2 e
      .fin (s < 0) s.natAbs e

def sub (a b : Fp) : Fp := add a b.neg

/-- The exact product (R37, R39). -/
def mul : Fp → Fp → Fp
  | .nan, _ => .nan
  | _, .nan => .nan
  | .inf a, .inf b => .inf (a != b)
  | .inf a, .fin n m _ => if m = 0 then .nan else .inf (a != n)
  | .fin n m _, .inf b => if m = 0 then .nan else .inf (n != b)
  | .fin n1 m1 e1, .fin n2 m2 e2 => .fin (n1 != n2) (m1 * m2) (e1 + e2)

/-- Multiplication by 2^k, exact. -/
def scale (k : Int) : Fp → Fp
  | .fin n m e => .fin n m (e + k)
  | x => x

/-- -1, 0 or 1 as the first is less, equal or greater; none with a NaN. -0 equals +0 (R124). -/
def cmp : Fp → Fp → Option Int
  | .nan, _ => none
  | _, .nan => none
  | .inf a, .inf b => some ((if b then 1 else 0) - (if a then 1 else 0))
  | .inf a, .fin .. => some (if a then -1 else 1)
  | .fin .., .inf b => some (if b then 1 else -1)
  | .fin n1 m1 e1, .fin n2 m2 e2 =>
    let e := min e1 e2
    some ((numer n1 m1 e1 e - numer n2 m2 e2 e).sign)

def lt (a b : Fp) : Bool := cmp a b == some (-1)
def eq (a b : Fp) : Bool := cmp a b == some 0
def le (a b : Fp) : Bool := lt a b || eq a b

/-- The value rounded to an integer and clamped to lo..hi; NaN gives 0 (R40, R132). -/
def toInt (r : RMode) (lo hi : Int) : Fp → Int
  | .nan => 0
  | .inf n => if n then lo else hi
  | .fin n m e =>
    let v : Int := roundScaled r n m e
    max lo (min hi (if n then -v else v))

/-- A subnormal of the format, which the matrix unit's inputs replace by a zero of its sign (R38). -/
def flush (f : FpFmt) (b : Nat) : Fp :=
  match ofBits f b with
  | .fin n m e => if m < 2 ^ f.mbits then .fin n 0 e else .fin n m e
  | x => x

/-- floor(log2 |x|) of a finite nonzero value. -/
def log2Floor : Fp → Int
  | .fin _ m e => m.log2 + e
  | _ => 0

end Fp

/-- Minimum and maximum on encodings: -0 below +0, NaN gives the canonical NaN, else the operand unchanged (R122). -/
def fpMin (f : FpFmt) (a b : Nat) : Nat :=
  let x := Fp.ofBits f a
  let y := Fp.ofBits f b
  if x.isNan || y.isNan then f.nanBits
  else if Fp.lt x y || (Fp.eq x y && x.sign) then a else b
def fpMax (f : FpFmt) (a b : Nat) : Nat :=
  let x := Fp.ofBits f a
  let y := Fp.ofBits f b
  if x.isNan || y.isNan then f.nanBits
  else if Fp.lt y x || (Fp.eq x y && !x.sign) then a else b

def fpAdd (f : FpFmt) (a b : Nat) : Nat := ((Fp.ofBits f a).add (Fp.ofBits f b)).round f .rn
def fpSub (f : FpFmt) (a b : Nat) : Nat := ((Fp.ofBits f a).sub (Fp.ofBits f b)).round f .rn
def fpMul (f : FpFmt) (a b : Nat) : Nat := ((Fp.ofBits f a).mul (Fp.ofBits f b)).round f .rn
/-- a * b + c with one rounding (R121). -/
def fpFma (f : FpFmt) (a b c : Nat) : Nat :=
  (((Fp.ofBits f a).mul (Fp.ofBits f b)).add (Fp.ofBits f c)).round f .rn
/-- Conversion between formats (R132). -/
def fpCvt (src dst : FpFmt) (r : RMode) (a : Nat) : Nat := (Fp.ofBits src a).round dst r

/-- A two's complement reading of w bits. -/
def toSigned (w n : Nat) : Int := if n % 2 ^ w < 2 ^ (w - 1) then (n % 2 ^ w : Int) else (n % 2 ^ w : Int) - 2 ^ w
/-- The w-bit pattern of an integer, wrapping (R40). -/
def ofSigned (w : Nat) (i : Int) : Nat := (i % (2 ^ w : Int)).toNat
/-- Clamping to a type's range (R40). -/
def clampInt (signed : Bool) (w : Nat) (i : Int) : Int :=
  if signed then max (-(2 ^ (w - 1))) (min (2 ^ (w - 1) - 1) i) else max 0 (min (2 ^ w - 1) i)
/-- A w-bit pattern read as signed or natural. -/
def readInt (signed : Bool) (w n : Nat) : Int := if signed then toSigned w n else (n % 2 ^ w : Int)

/-! ### Correctly rounded functions (R136, R137, R170; assumption 11)

Exact cases are treated apart; every other value is irrational, and is enclosed to about 300 bits with a final odd bit, so that the one rounding to
at most 53 bits is the rounding of the exact value. -/

def fixP : Nat := 320
/-- floor(pi * 2^320). -/
def piQ : Nat := 0x3243f6a8885a308d313198a2e03707344a4093822299f31d0082efa98ec4e6c89452821e638d01377
/-- floor(ln 2 * 2^320). -/
def ln2Q : Nat := 0xb17217f7d1cf79abc9e3b39803f2f6af40f343267298b62d8a0d175b8baafa2be7b876206debac98

/-- An inexact positive magnitude m * 2^e, marked odd below its last bit. -/
def inexact (neg : Bool) (m : Nat) (e : Int) : Fp := .fin neg (2 * m + 1) (e - 1)

/-- Integer square root, one bit of the result a step. -/
def isqrtGo (n : Nat) : Nat → Nat → Nat
  | 0, r => r
  | k + 1, r => let c := r + 2 ^ k; isqrtGo n k (if c * c ≤ n then c else r)
def isqrt (n : Nat) : Nat := isqrtGo n (n.log2 / 2 + 1) 0

def fpRecip : Fp → Fp
  | .nan => .nan
  | .inf n => .fin n 0 0
  | .fin n m e =>
    if m = 0 then .inf n else
      let k := m.log2 + 400
      let q := 2 ^ k / m
      if q * m = 2 ^ k then .fin n q (-e - k) else inexact n q (-e - k)

def fpRsqrt : Fp → Fp
  | .nan => .nan
  | .inf n => if n then .nan else .fin false 0 0
  | .fin n m e =>
    if m = 0 then .inf n else if n then .nan else
      let odd := e % 2 != 0
      let m' := if odd then 2 * m else m
      let e' := if odd then e - 1 else e
      let k := m'.log2 + 400
      let r := isqrt (2 ^ (2 * k) / m')
      if r * r * m' = 2 ^ (2 * k) then .fin false r (-(e' / 2) - k) else inexact false r (-(e' / 2) - k)

/-- Sum of the exponential series at x / 2^320 for 0 ≤ x < 2^320. -/
def expSeries (x : Nat) : Nat → Nat → Nat → Nat → Nat
  | 0, _, _, acc => acc
  | fuel + 1, k, term, acc => let t := term * x / 2 ^ fixP / k; expSeries x fuel (k + 1) t (acc + t)
def expFix (x : Nat) : Nat := expSeries x 90 1 (2 ^ fixP) (2 ^ fixP)

/-- 2^x (R136). -/
def fpExp2 : Fp → Fp
  | .nan => .nan
  | .inf n => if n then .fin false 0 0 else .inf false
  | .fin n m e =>
    if m = 0 then .fin false 1 0
    else if (m.log2 : Int) + e > 20 then (if n then inexact false 1 (-2000000) else .inf false)
    else
      let v := Fp.numer n m e (min e 0)
      let d : Int := 2 ^ (-(min e 0)).toNat
      let whole := v / d
      let frac := (v % d).toNat
      if frac = 0 then .fin false 1 whole
      else inexact false (expFix (frac * ln2Q / d.toNat)) (whole - fixP)

/-- Sum of z + z^3/3 + z^5/5 + … at z / 2^320. -/
def atanhSeries (z2 : Nat) : Nat → Nat → Nat → Nat → Nat
  | 0, _, _, acc => acc
  | fuel + 1, k, pow, acc => let p := pow * z2 / 2 ^ fixP; atanhSeries z2 fuel (k + 2) p (acc + p / k)

/-- log2 x (R136). -/
def fpLog2 : Fp → Fp
  | .nan => .nan
  | .inf n => if n then .nan else .inf false
  | .fin n m e =>
    if m = 0 then .inf true else if n then .nan else
      let l := m.log2
      let whole : Int := e + l
      if m = 2 ^ l then Fp.ofInt whole
      else
        let z := (m - 2 ^ l) * 2 ^ fixP / (m + 2 ^ l)
        let ln := 2 * atanhSeries (z * z / 2 ^ fixP) 120 3 z z
        let frac : Int := (ln * 2 ^ fixP / ln2Q : Nat)
        let total := whole * 2 ^ fixP + frac
        inexact (total < 0) total.natAbs (-(fixP : Int))

/-- tanh x (R136). -/
def fpTanh : Fp → Fp
  | .nan => .nan
  | .inf n => .fin n 1 0
  | .fin n m e =>
    if m = 0 then .fin n 0 0
    else if (m.log2 : Int) + e < -60 then .fin n (m * 2 ^ 100 - 1) (e - 100)
    else if (m.log2 : Int) + e ≥ 6 then .fin n (2 ^ 100 - 1) (-100)
    else
      let x2 := Fp.roundScaled .rz false m (e + 1 + fixP)
      let k := x2 / ln2Q
      let big := expFix (x2 - k * ln2Q) * 2 ^ k
      let one := 2 ^ fixP
      inexact n ((big - one) * 2 ^ (fixP + 100) / (big + one)) (-(fixP + 100 : Int))

/-- Sum of 1 - w/6 + w^2/120 - … at w / 2^320, the series of sin z / z with w = z^2. -/
def sincSeries (w : Nat) : Nat → Nat → Int → Int → Int
  | 0, _, _, acc => acc
  | fuel + 1, k, term, acc =>
    let t := -(term * w / 2 ^ fixP) / (k * (k + 1) : Nat)
    sincSeries w fuel (k + 2) t (acc + t)

/-- sin(pi * num / den) for 0 ≤ num / den ≤ 1/2. -/
def sinPiQuarter (num den : Nat) : Fp :=
  if num = 0 then .fin false 0 0
  else if 2 * num = den then .fin false 1 0
  else if 6 * num = den then .fin false 1 (-1)
  else
    let k := den.log2 + fixP
    let z := piQ * num * 2 ^ k / den
    let zf := z / 2 ^ k
    let s := sincSeries (zf * zf / 2 ^ fixP) 70 2 (2 ^ fixP) (2 ^ fixP)
    inexact false (z * s.toNat) (-(2 * fixP + k : Int))

/-- sin(pi * num / den) and cos(pi * num / den) for 0 ≤ num / den < 2; an exact zero is +0 (R170). -/
def sinPiRat (num den : Nat) : Fp :=
  if 2 * num ≤ den then sinPiQuarter num den
  else if num < den then sinPiQuarter (den - num) den
  else if num = den then .fin false 0 0
  else if 2 * num ≤ 3 * den then (sinPiQuarter (num - den) den).neg
  else (sinPiQuarter (2 * den - num) den).neg
def cosPiRat (num den : Nat) : Fp :=
  let s := sinPiRat ((2 * num + den) % (4 * den)) (2 * den)
  if s.isZero then .fin false 0 0 else s

/-- The fraction x mod 2 of a finite value, over a power of two. -/
def fpMod2 (m : Nat) (e : Int) : Nat × Nat :=
  if e ≥ 1 then (0, 1) else let d := 2 ^ (-e).toNat; (m % (2 * d), d)

/-- sin(pi x) (R137). -/
def fpSinPi : Fp → Fp
  | .nan => .nan
  | .inf _ => .nan
  | .fin n m e =>
    if m = 0 then .fin n 0 0 else
      let (a, d) := fpMod2 m e
      let s := sinPiRat a d
      if s.isZero then .fin n 0 0 else if n then s.neg else s
/-- cos(pi x) (R137). -/
def fpCosPi : Fp → Fp
  | .nan => .nan
  | .inf _ => .nan
  | .fin _ m e => let (a, d) := fpMod2 m e; cosPiRat a d

/-! ### Shared-exponent blocks (R44 to R46) -/

/-- Magnitude bits of an SX element. -/
def sxBits : Nat → Nat
  | 0 => 2
  | 1 => 4
  | _ => 7
/-- Bytes of a block of 16 elements. -/
def sxBlockBytes (m : Nat) : Nat := 2 + 2 * (m + 1)

/-- Element i of a block held in the low bits of b (R45). -/
def sxDecode (m b i : Nat) : Fp :=
  let e := b % 256
  let mu := b / 2 ^ (8 + i / 2) % 2
  let el := b / 2 ^ (16 + i * (m + 1)) % 2 ^ (m + 1)
  if e = 255 then .nan
  else .fin (el / 2 ^ m % 2 == 1) (el % 2 ^ m) ((e : Int) - 127 - mu - (m - 1))

/-- The largest magnitude among real finite elements. -/
def sxMax (xs : List (Option Fp)) : Fp :=
  xs.foldl (fun a x => match x with | some v => if Fp.lt a v.abs then v.abs else a | none => a) Fp.zero

/-- RoundNE(|x| * 2^k), with an infinity giving the limit. -/
def sxScale (x : Fp) (k : Int) (lim : Nat) : Nat :=
  match x with
  | .fin _ m e => min lim (Fp.roundScaled .rn false m (e + k))
  | _ => lim

/-- The block of 16 elements, of which none is padding (R46). -/
def sxEncode (m : Nat) (xs : List (Option Fp)) : Nat :=
  let lim := 2 ^ m - 1
  if xs.any (fun x => match x with | some .nan => true | _ => false) then 255
  else
    let amax := sxMax xs
    let e : Int := if amax.isInf then 254 else if amax.isZero then 0 else max 0 (min 254 (amax.log2Floor + 127))
    let mu (j : Nat) : Nat :=
      let p := sxMax [(xs[2 * j]?).join, (xs[2 * j + 1]?).join]
      if !p.isZero && !p.isInf && sxScale p (m - (e - 127)) (lim + 1) ≤ lim then 1 else 0
    let el (i : Nat) : Nat :=
      match (xs[i]?).join with
      | none => 0
      | some v =>
        let q := sxScale v ((m : Int) - 1 + mu (i / 2) - (e - 127)) lim
        if q = 0 then 0 else (if v.sign then 2 ^ m else 0) + q
    e.toNat + ((List.range 8).foldl (fun a j => a + mu j * 2 ^ (8 + j)) 0)
      + ((List.range 16).foldl (fun a i => a + el i * 2 ^ (16 + i * (m + 1))) 0)

/-- The row of blocks of a list of elements, the last block padded (R44, R46). -/
def sxEncodeRow (m : Nat) (xs : List (Option Fp)) : Nat :=
  (List.range ((xs.length + 15) / 16)).foldl
    (fun a b => a + sxEncode m ((xs.drop (16 * b)).take 16) * 2 ^ (8 * sxBlockBytes m * b)) 0
/-- Element i of a row of blocks. -/
def sxRowElem (m row i : Nat) : Fp :=
  sxDecode m (row / 2 ^ (8 * sxBlockBytes m * (i / 16)) % 2 ^ (8 * sxBlockBytes m)) (i % 16)

/-! ### Narrow integers (R41, R42) -/

/-- The width that a `%fmtn` value gives. -/
def fmtnWidth (f : BitVec 5) : Nat := match (f.extractLsb' 1 2).toNat with | 0 => 2 | 1 => 4 | _ => 8
def fmtnSigned (f : BitVec 5) : Bool := f.getLsbD 0
/-- R42: whether a value is one that %fmtn may hold. -/
def fmtnValid (f : BitVec 5) : Bool := f.extractLsb' 1 2 != 3 && f.extractLsb' 3 2 != 3

/-- The value of a w-bit narrow code under %fmtn (R42). -/
def narrowDecode (f : BitVec 5) (w n : Nat) : Int :=
  if !fmtnSigned f then (n % 2 ^ w : Int)
  else if n % 2 ^ w = 2 ^ (w - 1) then
    (match (f.extractLsb' 3 2).toNat with | 0 => -(2 ^ (w - 1)) | 1 => 0 | _ => -(2 ^ (w - 1) - 1))
  else toSigned w n
/-- The code of an integer clamped to the narrow range (R42). -/
def narrowEncode (f : BitVec 5) (w : Nat) (i : Int) : Nat :=
  if !fmtnSigned f then (max 0 (min (2 ^ w - 1) i)).toNat
  else
    let lo : Int := if f.extractLsb' 3 2 = 0 then -(2 ^ (w - 1)) else -(2 ^ (w - 1) - 1)
    ofSigned w (max lo (min (2 ^ (w - 1) - 1) i))

end Sys2Proof.Machine
end

