-- ==== Sys2Proof/Machine/Operands.lean ====
section
/-!
DEFINITION. Sys2Proof/Machine/Operands.lean: every operand form: brim references (R66), OperandB (R92), vector sources and broadcasts (R64, R117),
random vectors (R266), and vectors as elements (R81, R116).
-/
namespace Sys2Proof.Machine

/-! ### Brim references -/

def State.brimWord (s : State) (i : Nat) : Word32 := s.issue.brim.getD i 0

/-- The 64-bit value of a brim reference (R66). -/
def brimValue (w w1 : Word32) : Shape → Word
  | .i32 => w.signExtend 64
  | .n32 => w.setWidth 64
  | .w64 => w1 ++ w
  | .f32w => BitVec.ofNat 64 (fpCvt fp32 fp64 .rn w.toNat)
  | .hi32 => w ++ 0#32
  | .h16x4 => let h := w.setWidth 16; h ++ h ++ h ++ h
  | .b8x8 => let h := w.setWidth 8; h ++ h ++ h ++ h ++ h ++ h ++ h ++ h

def State.brimVal (s : State) (b : Brim) : Word := brimValue (s.brimWord b.idx.val) (s.brimWord (b.idx.val + 1)) b.shape

/-! ### Scalar operands -/

/-- OperandB (R92). -/
def State.opB (s : State) : Src → Word
  | .reg r => s.readS r 1
  | .lit b => s.brimVal b
/-- The scalar named by field a (R92). -/
def State.opA (s : State) (r : SReg) : Word := s.readS r 0
/-- The scalar named by field d where it is a source (R102, R196). -/
def State.opD (s : State) (r : SReg) : Word := s.readS r 2
/-- The second operand of predicate logic (R105). -/
def State.opQ (s : State) : PSrc → Word
  | .reg r => s.readP r 1
  | .lit b => s.brimVal b

/-! ### Random vectors -/

/-- Mix of R266. -/
def mix (s i : Nat) : Nat :=
  let z := (s + (i + 1) * 0x9E3779B97F4A7C15) % 2 ^ 64
  let z := (z ^^^ z >>> 30) * 0xBF58476D1CE4E5B9 % 2 ^ 64
  let z := (z ^^^ z >>> 27) * 0x94D049BB133111EB % 2 ^ 64
  z ^^^ z >>> 31

/-- Elements of `w` bits, element 0 lowest, as one number. -/
def joinW (w : Nat) : List Nat → Nat
  | [] => 0
  | x :: t => x % 2 ^ w + 2 ^ w * joinW w t
/-- The `n` elements of `w` bits of a number. -/
def splitW (w n v : Nat) : List Nat := (List.range n).map fun i => bits v (i * w) w

/-- Vector k of the stream of a seed (R266). -/
def randomVector (seed k : Nat) : VWord := BitVec.ofNat 2048 (joinW 64 ((List.range 32).map fun w => mix seed (32 * k + w)))

/-- The vector that the `n`-th pop of this bundle returns (R65, R266, R269). -/
def State.rnd (s : State) (n : Nat) : VWord :=
  if s.me.unsettled s.issue.ctx (.spec .rseed) then Config.freeBits 2048 s.tick (s.useNo (40 + n))
  else randomVector s.my.rseed.toNat ((s.my.rpos.toNat + n) % 2 ^ 64)

/-- One more pop takes place when the bundle commits (R119). -/
def srcPops : VSrc → Nat
  | .rnd => 1
  | _ => 0
def opPops : VOp → Nat
  | .src v => srcPops v
  | .lit _ => 0
def State.addPops (s : State) (n : Nat) : State := s.mapIssue fun i => { i with pops := i.pops + n }

/-- A scalar slot with vector sources: its pops take place whatever the predicate holds (R119). -/
def runPopSlot (g : Guard) (n : Nat) (s : State) (f : State → Except Flt State) : Out :=
  if s.guard g then
    match f s with
    | .ok t => .next (t.addPops n)
    | .error e => .next (s.slotFault e)
  else .next (s.addPops n)

/-! ### Vectors as elements -/

/-- Element `i` of width `w` (R81). -/
def elem (v : VWord) (w i : Nat) : Nat := bits v.toNat (i * w) w
def elems (v : VWord) (w : Nat) : List Nat := splitW w (2048 / w) v.toNat
def vOfElems (w : Nat) (xs : List Nat) : VWord := BitVec.ofNat 2048 (joinW w xs)

/-- `%lane`: each lane of the form's width holds its own index (R64). -/
def laneVector (w : Nat) : VWord := vOfElems w (List.range (2048 / w))

/-- A vector source (R64). `pops` counts the pops of this bundle before it; `w` is the lane width of the form. -/
def State.vsrc (s : State) (a : VSrc) (port pops w : Nat) : VWord :=
  match a with
  | .reg r => s.readV r port
  | .rnd => s.rnd (s.issue.pops + pops)
  | .zero => 0
  | .lane => laneVector w

/-- The second operand of a vector form: a source, or a literal in every lane (R66, R117). -/
def State.vop (s : State) (b : VOp) (port pops w : Nat) : VWord :=
  match b with
  | .src v => s.vsrc v port pops w
  | .lit l => vOfElems w (List.replicate (2048 / w) (s.brimVal l).toNat)

/-! ### Formats of the vector columns -/

/-- Lane width (R116). -/
def laneW : VFmt → Nat
  | .f64 | .i64 | .n64 => 64
  | _ => 32
def ffCol : FFmt → VFmt
  | .f64 => .f64
  | .f32 => .f32
  | .f16 => .f16
  | .bf16 => .bf16
def ifCol : IFmt → VFmt
  | .i32 => .i32
  | .n32 => .n32
  | .i64 => .i64
  | .n64 => .n64
/-- The IEEE format of a float column. -/
def fpOf : VFmt → Option FpFmt
  | .f64 => some fp64
  | .f32 => some fp32
  | .f16 => some fp16
  | .bf16 => some bf16
  | _ => none
def isSigned : VFmt → Bool
  | .i32 | .i64 => true
  | _ => false
/-- The element's own bits within its lane (R81). -/
def elemBits : VFmt → Nat
  | .f16 | .bf16 => 16
  | f => laneW f

end Sys2Proof.Machine
end

