-- ==== Sys2Proof/Machine/Flags.lean ====
section
/-!
DEFINITION. Sys2Proof/Machine/Flags.lean: this hardware has no status flags (R37, R93): the outcomes of comparisons are predicates. The relations of
the compares (R104, R124), and which elements of a vector form are active (R118).
-/
namespace Sys2Proof.Machine

/-- A compare writes its outcome to all 64 bits (R104). -/
def predAll (b : Bool) : Word := if b then BitVec.allOnes 64 else 0

/-- The bits of a guard as a lane mask: pred = 0 makes every element active (R118). -/
def State.active (s : State) : Guard → Word
  | .always => BitVec.allOnes 64
  | .on r neg => if neg then ~~~ s.readP r 63 else s.readP r 63

/-- Element-wise merge of a result into the destination as read at issue (R118). -/
def mergeElems (mask : Word) (new old : List Nat) : List Nat :=
  (new.zip old).zipIdx.map fun ((n, o), i) => if mask.getLsbD i then n else o

/-- The vector with active elements of width `w` from `new` and the others from `old`. An old element is its own `e` bits: above them its lane is written
as zero (R81, R116, R118). -/
def vMerge (w e : Nat) (mask : Word) (new : List Nat) (old : VWord) : VWord := vOfElems w (mergeElems mask new ((elems old w).map (· % 2 ^ e)))

/-- a = b in a column (R124). -/
def relEq (f : VFmt) (a b : Nat) : Bool :=
  match fpOf f with
  | some p => (Fp.ofBits p a).eq (Fp.ofBits p b)
  | none => a == b
/-- a < b in a column (R124). -/
def relLt (f : VFmt) (a b : Nat) : Bool :=
  match fpOf f with
  | some p => (Fp.ofBits p a).lt (Fp.ofBits p b)
  | none => decide (readInt (isSigned f) (laneW f) a < readInt (isSigned f) (laneW f) b)
/-- a ≤ b in a float column (R124). -/
def relLe (f : VFmt) (a b : Nat) : Bool :=
  match fpOf f with
  | some p => (Fp.ofBits p a).le (Fp.ofBits p b)
  | none => decide (readInt (isSigned f) (laneW f) a ≤ readInt (isSigned f) (laneW f) b)

/-- The predicate a vector compare writes: bit l for element l where active, the old bit elsewhere; bits 63:32 of a 64-bit form are 0 (R118, R124). -/
def predMerge (w : Nat) (mask : Word) (rel : List Bool) (old : Word) : Word :=
  let n := 2048 / w
  BitVec.ofNat 64 (joinW 1 ((List.range n).map fun l => (if mask.getLsbD l then rel.getD l false else old.getLsbD l).toNat))

end Sys2Proof.Machine
end

