-- ==== Sys2Proof/Machine/Scalar.lean ====
section
/-!
DEFINITION. Sys2Proof/Machine/Scalar.lean: integer arithmetic, logic, bit fields, select, compares, predicate logic and special-register access of the
A and B slots (R92 to R106, R85, R86).
-/
namespace Sys2Proof.Machine

/-! ### Functions -/

/-- Bits 127:64 of the signed product (R95). -/
def mulHigh (x y : Word) : Word := BitVec.ofInt 64 (x.toInt * y.toInt / 2 ^ 64)
/-- Bits 127:64 of the natural product (R95). -/
def mulHighN (x y : Word) : Word := BitVec.ofNat 64 (x.toNat * y.toNat / 2 ^ 64)
/-- Division and remainder (R96). -/
def divS (x y : Word) : Word := if y = 0 then BitVec.allOnes 64 else x.sdiv y
def divN (x y : Word) : Word := if y = 0 then BitVec.allOnes 64 else x.udiv y
def remS (x y : Word) : Word := if y = 0 then x else x.srem y
def remN (x y : Word) : Word := if y = 0 then x else x.umod y
/-- The count of a shift or rotate: bits 5:0 (R97). -/
def shiftCount (y : Word) : Nat := y.toNat % 64
/-- R100. -/
def leadingZeros (y : Word) : Nat := if y = 0 then 64 else 63 - y.toNat.log2
def trailingZeros (y : Word) : Nat := ((List.range 64).find? fun i => y.getLsbD i).getD 64
def onesCount (y : Word) : Nat := ((List.range 64).filter fun i => y.getLsbD i).length
/-- Saturating sums (R40, R98). -/
def satAdd (signed : Bool) (w : Nat) (x y : Nat) : Nat := ofSigned w (clampInt signed w (readInt signed w x + readInt signed w y))
def satSub (signed : Bool) (w : Nat) (x y : Nat) : Nat := ofSigned w (clampInt signed w (readInt signed w x - readInt signed w y))
/-- The field of a field descriptor: position and used length (R102). -/
def fieldPos (y : Word) : Nat := y.toNat % 64
def fieldLen (y : Word) : Nat := min (bits y.toNat 8 7) (64 - fieldPos y)
def fieldMask (y : Word) : Word := BitVec.ofNat 64 ((2 ^ fieldLen y - 1) * 2 ^ fieldPos y)
def fieldGet (x y : Word) : Word := (x &&& fieldMask y) >>> fieldPos y
def fieldGetS (x y : Word) : Word := if fieldLen y = 0 then 0 else BitVec.ofInt 64 (toSigned (fieldLen y) (fieldGet x y).toNat)
def fieldPut (old x y : Word) : Word := (old &&& ~~~ fieldMask y) ||| ((x <<< fieldPos y) &&& fieldMask y)

/-! ### Shapes of the meanings -/

/-- A guarded scalar result (R63, R94). -/
def aluSlot (g : Guard) (d : SReg) (bound : Nat) (v : Word) (s : State) : Out := plainSlot g s fun t => t.writeS d bound v
/-- A guarded predicate result (R104). -/
def predSlot (g : Guard) (d : PReg) (v : Word) (s : State) : Out := plainSlot g s fun t => t.writeP d 1 v

/-! ### Meanings -/

/-- R94. -/
def execAdd (g : Guard) (d a : SReg) (b : Src) (s : State) : Out := aluSlot g d 1 (s.opA a + s.opB b) s
/-- R94. -/
def execSub (g : Guard) (d a : SReg) (b : Src) (s : State) : Out := aluSlot g d 1 (s.opA a - s.opB b) s
/-- R94. -/
def execMul (g : Guard) (d a : SReg) (b : Src) (s : State) : Out := aluSlot g d 3 (s.opA a * s.opB b) s
/-- R95. -/
def execMulh (g : Guard) (d a : SReg) (b : Src) (s : State) : Out := aluSlot g d 3 (mulHigh (s.opA a) (s.opB b)) s
/-- R95. -/
def execMulhN (g : Guard) (d a : SReg) (b : Src) (s : State) : Out := aluSlot g d 3 (mulHighN (s.opA a) (s.opB b)) s
/-- R96. -/
def execDiv (g : Guard) (d a : SReg) (b : Src) (s : State) : Out := aluSlot g d 24 (divS (s.opA a) (s.opB b)) s
/-- R96. -/
def execDivN (g : Guard) (d a : SReg) (b : Src) (s : State) : Out := aluSlot g d 24 (divN (s.opA a) (s.opB b)) s
/-- R96. -/
def execRem (g : Guard) (d a : SReg) (b : Src) (s : State) : Out := aluSlot g d 24 (remS (s.opA a) (s.opB b)) s
/-- R96. -/
def execRemN (g : Guard) (d a : SReg) (b : Src) (s : State) : Out := aluSlot g d 24 (remN (s.opA a) (s.opB b)) s
/-- R94. -/
def execAnd (g : Guard) (d a : SReg) (b : Src) (s : State) : Out := aluSlot g d 1 (s.opA a &&& s.opB b) s
/-- R94. -/
def execOr (g : Guard) (d a : SReg) (b : Src) (s : State) : Out := aluSlot g d 1 (s.opA a ||| s.opB b) s
/-- R94. -/
def execXor (g : Guard) (d a : SReg) (b : Src) (s : State) : Out := aluSlot g d 1 (s.opA a ^^^ s.opB b) s
/-- R94. -/
def execAndn (g : Guard) (d a : SReg) (b : Src) (s : State) : Out := aluSlot g d 1 (s.opA a &&& ~~~ s.opB b) s
/-- R97. -/
def execShl (g : Guard) (d a : SReg) (b : Src) (s : State) : Out := aluSlot g d 1 (s.opA a <<< shiftCount (s.opB b)) s
/-- R97. -/
def execShr (g : Guard) (d a : SReg) (b : Src) (s : State) : Out := aluSlot g d 1 (s.opA a >>> shiftCount (s.opB b)) s
/-- R97. -/
def execSra (g : Guard) (d a : SReg) (b : Src) (s : State) : Out := aluSlot g d 1 ((s.opA a).sshiftRight (shiftCount (s.opB b))) s
/-- R97. -/
def execRol (g : Guard) (d a : SReg) (b : Src) (s : State) : Out := aluSlot g d 1 ((s.opA a).rotateLeft (shiftCount (s.opB b))) s
/-- R97. -/
def execRor (g : Guard) (d a : SReg) (b : Src) (s : State) : Out := aluSlot g d 1 ((s.opA a).rotateRight (shiftCount (s.opB b))) s
/-- R94. -/
def execMin (g : Guard) (d a : SReg) (b : Src) (s : State) : Out := aluSlot g d 1 (if (s.opA a).toInt ≤ (s.opB b).toInt then s.opA a else s.opB b) s
/-- R94. -/
def execMax (g : Guard) (d a : SReg) (b : Src) (s : State) : Out := aluSlot g d 1 (if (s.opA a).toInt ≤ (s.opB b).toInt then s.opB b else s.opA a) s
/-- R94. -/
def execMinN (g : Guard) (d a : SReg) (b : Src) (s : State) : Out := aluSlot g d 1 (if (s.opA a).toNat ≤ (s.opB b).toNat then s.opA a else s.opB b) s
/-- R94. -/
def execMaxN (g : Guard) (d a : SReg) (b : Src) (s : State) : Out := aluSlot g d 1 (if (s.opA a).toNat ≤ (s.opB b).toNat then s.opB b else s.opA a) s
/-- R102. -/
def execBfx (g : Guard) (d a : SReg) (b : Src) (s : State) : Out := aluSlot g d 1 (fieldGetS (s.opA a) (s.opB b)) s
/-- R102. -/
def execBfxN (g : Guard) (d a : SReg) (b : Src) (s : State) : Out := aluSlot g d 1 (fieldGet (s.opA a) (s.opB b)) s
/-- R102. -/
def execBfi (g : Guard) (d a : SReg) (b : Src) (s : State) : Out := aluSlot g d 1 (fieldPut (s.opD d) (s.opA a) (s.opB b)) s
/-- R99. -/
def execLea1 (g : Guard) (d a : SReg) (b : Src) (s : State) : Out := aluSlot g d 1 (s.opA a + s.opB b * 1) s
/-- R99. -/
def execLea2 (g : Guard) (d a : SReg) (b : Src) (s : State) : Out := aluSlot g d 1 (s.opA a + s.opB b * 2) s
/-- R99. -/
def execLea4 (g : Guard) (d a : SReg) (b : Src) (s : State) : Out := aluSlot g d 1 (s.opA a + s.opB b * 4) s
/-- R99. -/
def execLea8 (g : Guard) (d a : SReg) (b : Src) (s : State) : Out := aluSlot g d 1 (s.opA a + s.opB b * 8) s
/-- R98. -/
def execAddS (g : Guard) (d a : SReg) (b : Src) (s : State) : Out := aluSlot g d 1 (BitVec.ofNat 64 (satAdd true 64 (s.opA a).toNat (s.opB b).toNat)) s
/-- R98. -/
def execSubS (g : Guard) (d a : SReg) (b : Src) (s : State) : Out := aluSlot g d 1 (BitVec.ofNat 64 (satSub true 64 (s.opA a).toNat (s.opB b).toNat)) s
/-- R98. -/
def execAddSN (g : Guard) (d a : SReg) (b : Src) (s : State) : Out := aluSlot g d 1 (BitVec.ofNat 64 (satAdd false 64 (s.opA a).toNat (s.opB b).toNat)) s
/-- R98. -/
def execSubSN (g : Guard) (d a : SReg) (b : Src) (s : State) : Out := aluSlot g d 1 (BitVec.ofNat 64 (satSub false 64 (s.opA a).toNat (s.opB b).toNat)) s
/-- R100. -/
def execClz (g : Guard) (d : SReg) (b : Src) (s : State) : Out := aluSlot g d 1 (BitVec.ofNat 64 (leadingZeros (s.opB b))) s
/-- R100. -/
def execCtz (g : Guard) (d : SReg) (b : Src) (s : State) : Out := aluSlot g d 1 (BitVec.ofNat 64 (trailingZeros (s.opB b))) s
/-- R100. -/
def execPopc (g : Guard) (d : SReg) (b : Src) (s : State) : Out := aluSlot g d 1 (BitVec.ofNat 64 (onesCount (s.opB b))) s
/-- R100. -/
def execSext8 (g : Guard) (d : SReg) (b : Src) (s : State) : Out := aluSlot g d 1 (((s.opB b).setWidth 8).signExtend 64) s
/-- R100. -/
def execSext16 (g : Guard) (d : SReg) (b : Src) (s : State) : Out := aluSlot g d 1 (((s.opB b).setWidth 16).signExtend 64) s
/-- R100. -/
def execSext32 (g : Guard) (d : SReg) (b : Src) (s : State) : Out := aluSlot g d 1 (((s.opB b).setWidth 32).signExtend 64) s
/-- R100. -/
def execZext8 (g : Guard) (d : SReg) (b : Src) (s : State) : Out := aluSlot g d 1 (((s.opB b).setWidth 8).setWidth 64) s
/-- R100. -/
def execZext16 (g : Guard) (d : SReg) (b : Src) (s : State) : Out := aluSlot g d 1 (((s.opB b).setWidth 16).setWidth 64) s
/-- R100. -/
def execZext32 (g : Guard) (d : SReg) (b : Src) (s : State) : Out := aluSlot g d 1 (((s.opB b).setWidth 32).setWidth 64) s
/-- R100. -/
def execMov (g : Guard) (d : SReg) (b : Src) (s : State) : Out := aluSlot g d 1 (s.opB b) s
/-- R101, bl = 0: a 12-bit immediate, sign-extended. -/
def execLiImm (g : Guard) (d : SReg) (imm : BitVec 12) (s : State) : Out := aluSlot g d 1 (imm.signExtend 64) s
/-- R101, bl = 1. -/
def execLiBrim (g : Guard) (d : SReg) (b : Brim) (s : State) : Out := aluSlot g d 1 (s.brimVal b) s
/-- R103: pred and neg form the condition and never guard the slot. -/
def execSel (g : Guard) (d a : SReg) (b : Src) (s : State) : Out := .next (s.writeS d 1 (if s.guard g then s.opA a else s.opB b))
/-- R104. -/
def execCmpEq (g : Guard) (d : PReg) (a : SReg) (b : Src) (s : State) : Out := predSlot g d (predAll (s.opA a == s.opB b)) s
/-- R104. -/
def execCmpNe (g : Guard) (d : PReg) (a : SReg) (b : Src) (s : State) : Out := predSlot g d (predAll (s.opA a != s.opB b)) s
/-- R104. -/
def execCmpLt (g : Guard) (d : PReg) (a : SReg) (b : Src) (s : State) : Out := predSlot g d (predAll ((s.opA a).slt (s.opB b))) s
/-- R104. -/
def execCmpLe (g : Guard) (d : PReg) (a : SReg) (b : Src) (s : State) : Out := predSlot g d (predAll ((s.opA a).sle (s.opB b))) s
/-- R104. -/
def execCmpLtN (g : Guard) (d : PReg) (a : SReg) (b : Src) (s : State) : Out := predSlot g d (predAll ((s.opA a).ult (s.opB b))) s
/-- R104. -/
def execCmpLeN (g : Guard) (d : PReg) (a : SReg) (b : Src) (s : State) : Out := predSlot g d (predAll ((s.opA a).ule (s.opB b))) s
/-- R105. -/
def execPand (g : Guard) (d a : PReg) (b : PSrc) (s : State) : Out := predSlot g d (s.readP a 0 &&& s.opQ b) s
/-- R105. -/
def execPor (g : Guard) (d a : PReg) (b : PSrc) (s : State) : Out := predSlot g d (s.readP a 0 ||| s.opQ b) s
/-- R105. -/
def execPxor (g : Guard) (d a : PReg) (b : PSrc) (s : State) : Out := predSlot g d (s.readP a 0 ^^^ s.opQ b) s
/-- R105. -/
def execPandn (g : Guard) (d a : PReg) (b : PSrc) (s : State) : Out := predSlot g d (s.readP a 0 &&& ~~~ s.opQ b) s
/-- R106. -/
def execPfrom (g : Guard) (d : PReg) (b : Src) (s : State) : Out := predSlot g d (s.opB b) s
/-- R106. -/
def execPto (g : Guard) (d : SReg) (a : PReg) (s : State) : Out := aluSlot g d 1 (s.readP a 0) s
/-- R85: bound 2. -/
def execRdsp (g : Guard) (d : SReg) (x : SpecReg) (s : State) : Out := aluSlot g d 2 (s.readSpec x 0) s

/-- Fmtset (R42, R43, R86, R270): the value governs from the context's third committed bundle. -/
def State.fmtSet (s : State) (x : Word) : Except Flt State := do
  require (fmtnValid (x.setWidth 5)) Code.fmtnInvalid 0
  .ok (s.mapMy fun c => { c with fmtPend := c.fmtPend ++ [⟨x.setWidth 5, 3⟩] })
/-- R86. -/
def execWrsp (g : Guard) (x : SpecReg) (b : Src) (s : State) : Out :=
  runSlot g s fun s =>
    let v := s.opB b
    match x with
    | .fmtn => s.fmtSet v
    | .tol => .ok (s.writeSpec .tol 1 v)
    | .rseed => .ok ((s.writeSpec .rseed 1 v).writeSpec .rpos 1 0)
    | .lease => .ok (s.writeSpec .lease 1 (BitVec.ofNat 64 (max (v.toNat % 65536) 1)))
    | _ => .error ⟨Code.illegalOp, 0, 0⟩
/-- R270. -/
def execFmtset (g : Guard) (b : Src) (s : State) : Out := runSlot g s fun s => s.fmtSet (s.opB b)

end Sys2Proof.Machine
end

