-- ==== Sys2Proof/Machine/Vector.lean ====
section
/-!
DEFINITION. Sys2Proof/Machine/Vector.lean: the V and X slots: lanewise arithmetic, compares, conversions, packing, reductions, special functions and
the bit network (R116 to R139).
-/
namespace Sys2Proof.Machine

/-! ### Shapes -/

/-- The elementwise result merged into vD under the predicate (R118), landing at the bound, with the slot's pops (R119). -/
def vecResult (g : Guard) (w e bound pops : Nat) (d : VNum) (new : List Nat) (s : State) : State :=
  (s.writeV d bound (vMerge w e (s.active g) new (s.readV d 2))).addPops pops

/-- Two sources, one result of `w`-bit elements, of which `e` bits are the element's own, taken from lanes of `lane` bits. -/
def lanewise2 (g : Guard) (lane w e bound : Nat) (d : VNum) (a : VSrc) (b : VOp) (f : Nat → Nat → Nat) (s : State) : Out :=
  .next (vecResult g w e bound (srcPops a + opPops b) d
    (List.zipWith f (elems (s.vsrc a 0 0 lane) w) (elems (s.vop b 1 (srcPops a) lane) w)) s)

/-- One source, one result. -/
def lanewise1 (g : Guard) (w bound : Nat) (d : VNum) (a : VSrc) (f : Nat → Nat) (s : State) : Out :=
  .next (vecResult g w w bound (srcPops a) d ((elems (s.vsrc a 0 0 w) w).map f) s)

/-- Two sources and the old vD. -/
def lanewise3 (g : Guard) (lane w e bound : Nat) (d : VNum) (a : VSrc) (b : VOp) (f : Nat → Nat → Nat → Nat) (s : State) : Out :=
  .next (vecResult g w e bound (srcPops a + opPops b) d
    (List.zipWith (fun o xy => f o xy.1 xy.2) (elems (s.readV d 3) w)
      ((elems (s.vsrc a 0 0 lane) w).zip (elems (s.vop b 1 (srcPops a) lane) w))) s)

/-- A compare (R124). -/
def vcmpSlot (g : Guard) (w : Nat) (d : PReg) (a : VSrc) (b : VOp) (f : Nat → Nat → Bool) (s : State) : Out :=
  .next ((s.writeP d 2 (predMerge w (s.active g)
    (List.zipWith f (elems (s.vsrc a 0 0 w) w) (elems (s.vop b 1 (srcPops a) w) w)) (s.readP d 2))).addPops (srcPops a + opPops b))

/-! ### Element functions -/

/-- An operation by column: rounded in a float column, modulo 2^w in an integer column (R120). -/
def colOp (ff : FpFmt → Nat → Nat → Nat) (fi : Nat → Nat → Nat) (f : VFmt) (x y : Nat) : Nat :=
  match fpOf f with
  | some p => ff p x y
  | none => fi x y % 2 ^ laneW f
/-- Bounds of `vadd`, `vsub`, `vmul` and `vfma` (R73). -/
def floatBound : VFmt → Nat → Nat
  | .f64, _ => 6
  | .f32, _ | .f16, _ | .bf16, _ => 5
  | _, i => i
/-- R122, integer columns. -/
def intMin (f : VFmt) (x y : Nat) : Nat := if readInt (isSigned f) (laneW f) x ≤ readInt (isSigned f) (laneW f) y then x else y
def intMax (f : VFmt) (x y : Nat) : Nat := if readInt (isSigned f) (laneW f) x ≤ readInt (isSigned f) (laneW f) y then y else x
/-- Minimum and maximum of elements, by column (R122). -/
def colMin (f : VFmt) (x y : Nat) : Nat := colOp fpMin (intMin f) f (x % 2 ^ elemBits f) (y % 2 ^ elemBits f)
def colMax (f : VFmt) (x y : Nat) : Nat := colOp fpMax (intMax f) f (x % 2 ^ elemBits f) (y % 2 ^ elemBits f)

/-- A complex product with components of a format in the low and high half (R125). -/
def complexMul (p : FpFmt) (x y : Nat) : Nat :=
  let w := p.width
  let v (n : Nat) : Fp := Fp.ofBits p (n % 2 ^ w)
  let ar := v x
  let ai := v (x / 2 ^ w)
  let br := v y
  let bi := v (y / 2 ^ w)
  (((ar.mul br).sub (ai.mul bi)).round p .rn) + 2 ^ w * (((ar.mul bi).add (ai.mul br)).round p .rn)

/-- One step of the recurrence (R126). -/
def lrecStep (p : FpFmt) (p2 p1 x alpha beta : Nat) : Nat :=
  let u := fpMul p x p1
  let t := fpMul p beta p2
  fpFma p alpha u t

/-- Conversion of an element (R132). -/
def cvtElem (r : RMode) (src dst : VFmt) (x : Nat) : Nat :=
  match fpOf src, fpOf dst with
  | some a, some b => fpCvt a b r x
  | some a, none =>
    let lo := if isSigned dst then -(2 ^ (laneW dst - 1) : Int) else 0
    let hi : Int := if isSigned dst then 2 ^ (laneW dst - 1) - 1 else 2 ^ laneW dst - 1
    ofSigned (laneW dst) ((Fp.ofBits a x).toInt r lo hi)
  | none, some b => (Fp.ofInt (readInt (isSigned src) (laneW src) x)).round b r
  | none, none => ofSigned (laneW dst) (clampInt (isSigned dst) (laneW dst) (readInt (isSigned src) (laneW src) x))

/-! ### Lanewise meanings -/

/-- R120. -/
def execVadd (g : Guard) (f : VFmt) (d : VNum) (a : VSrc) (b : VOp) (s : State) : Out :=
  lanewise2 g (laneW f) (laneW f) (elemBits f) (floatBound f 2) d a b (colOp fpAdd (· + ·) f) s
/-- R120. -/
def execVsub (g : Guard) (f : VFmt) (d : VNum) (a : VSrc) (b : VOp) (s : State) : Out :=
  lanewise2 g (laneW f) (laneW f) (elemBits f) (floatBound f 2) d a b (colOp fpSub (fun x y => x + (2 ^ laneW f - y)) f) s
/-- R120. -/
def execVmul (g : Guard) (f : VFmt) (d : VNum) (a : VSrc) (b : VOp) (s : State) : Out :=
  lanewise2 g (laneW f) (laneW f) (elemBits f) (floatBound f 4) d a b (colOp fpMul (· * ·) f) s
/-- R121. -/
def execVfma (g : Guard) (f : FFmt) (d : VNum) (a : VSrc) (b : VOp) (s : State) : Out :=
  lanewise3 g (laneW (ffCol f)) (laneW (ffCol f)) (elemBits (ffCol f)) (floatBound (ffCol f) 0) d a b
    (fun o x y => match fpOf (ffCol f) with | some p => fpFma p x y o | none => 0) s
/-- R125: element j is lanes 2j and 2j + 1. -/
def execVcmulC64 (g : Guard) (d : VNum) (a b : VSrc) (s : State) : Out := lanewise2 g 64 128 128 8 d a (.src b) (complexMul fp64) s
/-- R125. -/
def execVcmulC32 (g : Guard) (d : VNum) (a : VSrc) (b : VOp) (s : State) : Out := lanewise2 g 64 64 64 7 d a b (complexMul fp32) s
/-- R126. -/
def execVlrec (g : Guard) (single : Bool) (d a b : VNum) (s : State) : Out :=
  let p := if single then fp32 else fp64
  let w := p.width
  let v (r : VNum) (k port : Nat) : List Nat := elems (s.readV ⟨(r.val + k) % 32, Nat.mod_lt _ (by decide)⟩ port) w
  let old := elems (s.readV d 3) w
  let p1 := v a 0 4
  let x := v a 1 5
  let al := v b 0 6
  let be := v b 1 7
  .next (vecResult g w w (if single then 5 else 6) 0 d
    ((List.range (2048 / w)).map fun i => lrecStep p (old.getD i 0) (p1.getD i 0) (x.getD i 0) (al.getD i 0) (be.getD i 0)) s)
/-- R122. -/
def execVmin (g : Guard) (f : VFmt) (d : VNum) (a : VSrc) (b : VOp) (s : State) : Out := lanewise2 g (laneW f) (laneW f) (elemBits f) 2 d a b (colMin f) s
/-- R122. -/
def execVmax (g : Guard) (f : VFmt) (d : VNum) (a : VSrc) (b : VOp) (s : State) : Out := lanewise2 g (laneW f) (laneW f) (elemBits f) 2 d a b (colMax f) s
/-- R123. -/
def execVaddS (g : Guard) (f : IFmt) (d : VNum) (a : VSrc) (b : VOp) (s : State) : Out :=
  lanewise2 g (laneW (ifCol f)) (laneW (ifCol f)) (laneW (ifCol f)) 2 d a b (satAdd (isSigned (ifCol f)) (laneW (ifCol f))) s
/-- R123. -/
def execVsubS (g : Guard) (f : IFmt) (d : VNum) (a : VSrc) (b : VOp) (s : State) : Out :=
  lanewise2 g (laneW (ifCol f)) (laneW (ifCol f)) (laneW (ifCol f)) 2 d a b (satSub (isSigned (ifCol f)) (laneW (ifCol f))) s
/-- R124. -/
def execVcmpEq (g : Guard) (f : VFmt) (d : PReg) (a : VSrc) (b : VOp) (s : State) : Out := vcmpSlot g (laneW f) d a b (relEq f) s
/-- R124. -/
def execVcmpLt (g : Guard) (f : VFmt) (d : PReg) (a : VSrc) (b : VOp) (s : State) : Out := vcmpSlot g (laneW f) d a b (relLt f) s
/-- R124. -/
def execVcmpLe (g : Guard) (f : FFmt) (d : PReg) (a : VSrc) (b : VOp) (s : State) : Out :=
  vcmpSlot g (laneW (ffCol f)) d a b (relLe (ffCol f)) s
/-- R127. -/
def execVand (g : Guard) (d : VNum) (a : VSrc) (b : VOp) (s : State) : Out := lanewise2 g 32 32 32 1 d a b (· &&& ·) s
/-- R127. -/
def execVor (g : Guard) (d : VNum) (a : VSrc) (b : VOp) (s : State) : Out := lanewise2 g 32 32 32 1 d a b (· ||| ·) s
/-- R127. -/
def execVxor (g : Guard) (d : VNum) (a : VSrc) (b : VOp) (s : State) : Out := lanewise2 g 32 32 32 1 d a b (· ^^^ ·) s
/-- R127. -/
def execVandn (g : Guard) (d : VNum) (a : VSrc) (b : VOp) (s : State) : Out :=
  lanewise2 g 32 32 32 1 d a b (fun x y => x &&& (2 ^ 32 - 1 - y)) s

/-! ### Selection and movement -/

/-- R129: pred and neg form the condition and never guard the slot. -/
def execVsel (g : Guard) (d : VNum) (a : VSrc) (b : VOp) (s : State) : Out :=
  .next ((s.writeV d 1 (vMerge 32 32 (s.active g) (elems (s.vsrc a 0 0 32) 32) (s.vop b 1 (srcPops a) 32))).addPops (srcPops a + opPops b))
/-- R130. -/
def execVshuf (g : Guard) (d : VNum) (a : VSrc) (b : VOp) (s : State) : Out :=
  let x := elems (s.vsrc a 0 0 32) 32
  .next (vecResult g 32 32 3 (srcPops a + opPops b) d
    ((elems (s.vop b 1 (srcPops a) 32) 32).map fun i => if bit i 6 then 0 else x.getD (i % 64) 0) s)
/-- R131. -/
def execVbcast (g : Guard) (wide : Bool) (d : VNum) (a : SReg) (s : State) : Out :=
  let w := if wide then 64 else 32
  .next (vecResult g w w 2 0 d (List.replicate (2048 / w) ((s.opA a).toNat % 2 ^ w)) s)
/-- The count of a shift: the low 5 or 6 bits of the element (R128). -/
def vshiftSlot (g : Guard) (wide : Bool) (d : VNum) (a : VSrc) (b : VOp) (f : Nat → Nat → Nat → Nat) (s : State) : Out :=
  let w := if wide then 64 else 32
  lanewise2 g w w w 1 d a b (fun x y => f w x (y % w)) s
/-- R128. -/
def execVshl (g : Guard) (wide : Bool) (d : VNum) (a : VSrc) (b : VOp) (s : State) : Out :=
  vshiftSlot g wide d a b (fun w x n => x * 2 ^ n % 2 ^ w) s
/-- R128. -/
def execVshr (g : Guard) (wide : Bool) (d : VNum) (a : VSrc) (b : VOp) (s : State) : Out := vshiftSlot g wide d a b (fun _ x n => x / 2 ^ n) s
/-- R128. -/
def execVsra (g : Guard) (wide : Bool) (d : VNum) (a : VSrc) (b : VOp) (s : State) : Out :=
  vshiftSlot g wide d a b (fun w x n => ofSigned w (toSigned w x / 2 ^ n)) s

/-! ### Conversions -/

/-- R132: with a 64-bit source and a 32-bit destination, lanes 32 to 63 are written 0 whatever the predicate holds. -/
def execVcvt (g : Guard) (r : RMode) (d : VNum) (a : VSrc) (src dst : VFmt) (s : State) : Out :=
  let x := elems (s.vsrc a 0 0 (laneW src)) (laneW src)
  let n := min (2048 / laneW src) (2048 / laneW dst)
  let new := (x.take n).map (cvtElem r src dst)
  let old := (elems (s.readV d 2) (laneW dst)).map (· % 2 ^ elemBits dst)
  .next ((s.writeV d 4 (vOfElems (laneW dst) (mergeElems (s.active g) new (old.take n)))).addPops (srcPops a))

/-- The element bits of a packed narrow format under the `%fmtn` in effect (R133). -/
def packWidth (t : PackFmt) (fmtn : BitVec 5) : Nat :=
  match t with
  | .q2 => 2
  | .q4 => 4
  | .q8 => 8
  | _ => fmtnWidth fmtn
def packSx : PackFmt → Option Nat
  | .sx3 => some 2
  | .sx5 => some 4
  | .sx8 => some 7
  | _ => none

/-- The row that `vpack` forms: lanes whose predicate bit is 0 are padding (R133). -/
def packRow (fmtn : BitVec 5) (src : VFmt) (t : PackFmt) (real : Word) (xs : List Nat) : Nat :=
  match packSx t with
  | some m => sxEncodeRow m (xs.zipIdx.map fun (x, i) => if real.getLsbD i then (fpOf src).map fun p => Fp.ofBits p x else none)
  | none =>
    let w := packWidth t fmtn
    joinW w (xs.zipIdx.map fun (x, i) => if real.getLsbD i then narrowEncode fmtn w (readInt (isSigned src) 32 x) else 0)
/-- The lanes that `vunpack` decodes (R134). -/
def unpackRow (fmtn : BitVec 5) (dst : VFmt) (t : PackFmt) (row : Nat) : List Nat :=
  match packSx t with
  | some m => (List.range 64).map fun i => match fpOf dst with | some p => (sxRowElem m row i).round p .rn | none => 0
  | none =>
    let w := packWidth t fmtn
    (splitW w 64 row).map fun x => ofSigned 32 (narrowDecode fmtn w x)

/-- R133: the predicate marks the real elements and never guards the write. -/
def execVpack (g : Guard) (d : VNum) (a : VSrc) (src : VFmt) (t : PackFmt) (s : State) : Out :=
  .next ((s.writeV d 6 (BitVec.ofNat 2048 (packRow s.my.fmtn src t (s.active g) (elems (s.vsrc a 0 0 32) 32)))).addPops (srcPops a))
/-- R134. -/
def execVunpack (g : Guard) (d : VNum) (a : VSrc) (dst : VFmt) (t : PackFmt) (s : State) : Out :=
  .next (vecResult g 32 (elemBits dst) 4 (srcPops a) d (unpackRow s.my.fmtn dst t (s.vsrc a 0 0 32).toNat) s)

/-! ### Reductions (R135) -/

/-- The format a reduction keeps: FP32 for sums of FP16 and BF16 elements. -/
def redFmt (f : VFmt) (o : RedOp) : VFmt :=
  match f, o with
  | .f16, .sum | .f16, .scan | .f16, .sumsq | .bf16, .sum | .bf16, .scan | .bf16, .sumsq => .f32
  | _, _ => f
/-- The first active element's contribution, and each further step. -/
def redFirst (f : VFmt) (o : RedOp) (x : Nat) : Nat :=
  match o with
  | .sumsq => colOp fpMul (· * ·) f x x
  | _ => match fpOf f with | some p => (Fp.ofBits p x).round p .rn | none => x
def redStep (f : VFmt) (o : RedOp) (r x : Nat) : Nat :=
  match o with
  | .sum | .scan => colOp fpAdd (· + ·) f r x
  | .min => colMin f r x
  | .max => colMax f r x
  | .sumS | .scanS => satAdd (isSigned f) (laneW f) r x
  | .sumsq => match fpOf f with | some p => fpFma p x x r | none => (r + x * x) % 2 ^ laneW f
/-- The running value after each element, in canonical order. -/
def redRun (f : VFmt) (o : RedOp) (r : Option Nat) : List (Bool × Nat) → List (Option Nat)
  | [] => []
  | (act, x) :: t =>
    let r := if act then some (match r with | none => redFirst f o x | some v => redStep f o v x) else r
    r :: redRun f o r t
/-- The elements that `vred` writes. -/
def redElems (src : VFmt) (o : RedOp) (act : Word) (xs : List Nat) : List Nat :=
  let f := redFmt src o
  let conv (x : Nat) : Nat := match fpOf src, fpOf f with | some p, some q => if src = f then x % 2 ^ elemBits src else fpCvt p q .rn x | _, _ => x
  let run := redRun f o none (xs.zipIdx.map fun (x, i) => (act.getLsbD i, conv x))
  match o with
  | .scan | .scanS => run.map (·.getD 0)
  | _ => List.replicate xs.length ((run.getLast?.join).getD 0)
/-- R135: the predicate selects the active elements and never guards the write. -/
def execVred (g : Guard) (d : VNum) (a : VSrc) (src : VFmt) (op : RedOp) (s : State) : Out :=
  .next ((s.writeV d 72 (vOfElems (laneW src) (redElems src op (s.active g) (elems (s.vsrc a 0 0 (laneW src)) (laneW src))))).addPops (srcPops a))

/-! ### Special functions (R136, R137) -/

/-- A correctly rounded function of one argument, bound 12. -/
def specialSlot (g : Guard) (wide : Bool) (d : VNum) (a : VSrc) (f : Fp → Fp) (s : State) : Out :=
  let p := if wide then fp64 else fp32
  lanewise1 g p.width 12 d a (fun x => (f (Fp.ofBits p x)).round p .rn) s
def execVrcp (g : Guard) (wide : Bool) (d : VNum) (a : VSrc) (s : State) : Out := specialSlot g wide d a fpRecip s
def execVrsqrt (g : Guard) (wide : Bool) (d : VNum) (a : VSrc) (s : State) : Out := specialSlot g wide d a fpRsqrt s
def execVexp2 (g : Guard) (wide : Bool) (d : VNum) (a : VSrc) (s : State) : Out := specialSlot g wide d a fpExp2 s
def execVlog2 (g : Guard) (wide : Bool) (d : VNum) (a : VSrc) (s : State) : Out := specialSlot g wide d a fpLog2 s
def execVtanh (g : Guard) (wide : Bool) (d : VNum) (a : VSrc) (s : State) : Out := specialSlot g wide d a fpTanh s
/-- R137: the sine into vD and the cosine into vD + 1. -/
def execVsincos (g : Guard) (wide : Bool) (d : VNum) (a : VSrc) (s : State) : Out :=
  let p := if wide then fp64 else fp32
  let x := (elems (s.vsrc a 0 0 p.width) p.width).map (Fp.ofBits p)
  let d1 : VNum := ⟨(d.val + 1) % 32, Nat.mod_lt _ (by decide)⟩
  let put (r : VNum) (port : Nat) (f : Fp → Fp) (t : State) : State :=
    t.writeV r 12 (vMerge p.width p.width (s.active g) (x.map fun v => (f v).round p .rn) (s.readV r port))
  .next ((put d1 3 fpCosPi (put d 2 fpSinPi s)).addPops (srcPops a))

/-! ### The bit network (R138) -/

/-- One result bit: a source bit, or a constant. -/
def netBit (x sel : Nat) : Bool := if sel ≤ 0x7F then bit x sel else sel == 0x81
def netResult (pattern : BitVec 512) (x : Nat) : Word :=
  BitVec.ofNat 64 (joinW 1 ((splitW 8 64 pattern.toNat).map fun k => (netBit x k).toNat))
/-- The pattern that a `bnet` of this cycle reads (R300): one that a `bnload` of an earlier cycle is about to replace may be read old or new, whole. -/
def State.pattern (s : State) (c : Fin 8) : BitVec 512 :=
  match s.me.patPend.find? fun p => p.2.1 == c && decide (p.1 < s.me.cycle) with
  | some p => if Config.freeChoice s.tick (s.useNo 50) then p.2.2 else s.me.patterns[c]
  | none => s.me.patterns[c]
/-- R138. -/
def execBnet (g : Guard) (c : Fin 8) (d a : SReg) (b : Src) (s : State) : Out :=
  aluSlot g d 2 (netResult (s.pattern c) ((s.opA a).toNat + 2 ^ 64 * (s.opB b).toNat)) s

end Sys2Proof.Machine
end

