-- ==== Sys2Proof/Machine/Local.lean ====
section
/-!
DEFINITION. Sys2Proof/Machine/Local.lean: scratchpad loads and stores of the L and K slots (R196 to R201). A load reads memory as it stood before the
bundle; a store is staged and reaches the scratchpad when the bundle commits (R67).
-/
namespace Sys2Proof.Machine

/-- Checks 1 and 3 of R197 on one scratchpad access; the record's addr is the scratchpad address (assumption 23). -/
def spadCheck (a : Word) (n align : Nat) : Except Flt Unit := do
  require (decide (a.toNat + n ≤ spadSize)) Code.scratchRange a
  require (decide (a.toNat % align = 0)) Code.memAlign a
/-- Check 1 over a list of accesses, then check 3 over it (R197): the first that fails is reported. -/
def spadChecks (as : List Word) (n : Nat) : Except Flt Unit :=
  match as.find? fun a => decide (spadSize < a.toNat + n) with
  | some a => .error ⟨Code.scratchRange, a, 0⟩
  | none =>
    match as.find? fun a => decide (a.toNat % n ≠ 0) with
    | some a => .error ⟨Code.memAlign, a, 0⟩
    | none => .ok ()

/-- The 64-byte scratchpad words a slot needs (R189). -/
def State.touch (s : State) (as : List Nat) : State := s.mapIssue fun i => { i with touched := i.touched ++ as.map (· / 64) }

/-- The PA of the first poisoned 8-byte unit that `n` bytes of memory meet, with the bundle that loads them (R195). -/
def State.poisonAt (s : State) (pa n : Nat) : Option (Nat × BitVec 18 × BitVec 18) :=
  (s.poison.find? fun u => overlaps u 8 pa n).map fun u => (u, s.issue.pc, pcPlus s.issue.pc s.issue.len)

/-- A load's result: as `writeDest`, with its poison (R195) and what it is read from, which an acquire of the same bundle goes before (R214). -/
def State.writeLoad (s : State) (d : Dest) (bound : Nat) (v : VWord) (p : Option (Nat × BitVec 18 × BitVec 18)) (src : List LoadPiece) : State :=
  s.mapMe fun k => { k with inflight := k.inflight ++ [⟨s.issue.ctx, d, k.cycle, k.cycle + bound, false, false, some v, none, p, src⟩] }

/-! ### Releases that a load finds (R221, R222) -/

/-- The releases whose values a read at a physical address finds, for an acquire of scope code `acq` at a place among the reader's accesses: a release's value
stands until memory holds another one. Assumption 94. -/
def State.heardAt (s : State) (pa n acq acc : Nat) : List Heard :=
  (s.flags.filter fun f => overlaps f.pa f.size pa n && Memory.read s.mem f.pa f.size == f.val).flatMap fun f => f.points.map fun p => ⟨f.core, f.ctx, p.1, p.2, acq, acc⟩
/-- Releases not yet known join a list. -/
def joinHeard (l hs : List Heard) : List Heard := (hs.filter fun h => !(l.any fun g => { g with acc := h.acc } == h)) ++ l
/-- A plain load finds releases, which a later fence makes acquires (R221). -/
def State.hear (s : State) (c : CoreId) (x : CtxId) (pa n : Nat) : State :=
  match s.heardAt pa n 0 0 with
  | [] => s
  | hs => s.mapCtx c x fun y => { y with sync := { y.sync with half := joinHeard y.sync.half hs } }
/-- A load of the bundle being issued reads its core's scratchpad. -/
def State.hearOwn (s : State) (a n : Nat) : State := s.hear s.issue.core s.issue.ctx (spadBase s.issue.core + a) n

/-- The poison that a load into no register meets (R195): of the first unit of some scratchpad ranges, at a bound. -/
def State.loadPoison (s : State) (bound : Nat) (rs : List (Nat × Nat)) : State :=
  match rs.findSome? fun r => s.poisonAt (spadBase s.issue.core + r.1) r.2 with
  | some p => s.writeLoad .nothing bound 0 (some p) []
  | none => s

/-- Extension of a loaded value of `n` bytes to 64 bits (R198). -/
def extend (signed : Bool) (n v : Nat) : Word := if signed then BitVec.ofInt 64 (toSigned (8 * n) v) else BitVec.ofNat 64 v

/-- R198: a scalar load of `n` bytes, bound 4; what `s0` takes is discarded, and may be poisoned all the same (R195). -/
def spadLoad (g : Guard) (signed : Bool) (n : Nat) (d a : SReg) (b : Src) (s : State) : Out :=
  runSlot g s fun s => do
    let ad := s.opA a + s.opB b
    spadCheck ad n n
    .ok (((s.hearOwn ad.toNat n).touch [ad.toNat]).writeLoad (.s d) 4 ((extend signed n (s.spadReadOn .core s.issue.core ad.toNat n)).setWidth 2048)
      (s.poisonAt (spadBase s.issue.core + ad.toNat) n) [⟨0, 64, ad.toNat, n, signed, 0, 0⟩])
/-- R198: a scalar store of `n` bytes. -/
def spadStore (g : Guard) (n : Nat) (d a : SReg) (b : Src) (s : State) : Out :=
  runSlot g s fun s => do
    let ad := s.opA a + s.opB b
    spadCheck ad n n
    .ok ((s.touch [ad.toNat]).stage (.spad ad.toNat n ((s.opD d).setWidth 2048)))

/-- R198. -/
def execLdI8 (g : Guard) (d a : SReg) (b : Src) (s : State) : Out := spadLoad g true 1 d a b s
/-- R198. -/
def execLdN8 (g : Guard) (d a : SReg) (b : Src) (s : State) : Out := spadLoad g false 1 d a b s
/-- R198. -/
def execLdI16 (g : Guard) (d a : SReg) (b : Src) (s : State) : Out := spadLoad g true 2 d a b s
/-- R198. -/
def execLdN16 (g : Guard) (d a : SReg) (b : Src) (s : State) : Out := spadLoad g false 2 d a b s
/-- R198. -/
def execLdI32 (g : Guard) (d a : SReg) (b : Src) (s : State) : Out := spadLoad g true 4 d a b s
/-- R198. -/
def execLdN32 (g : Guard) (d a : SReg) (b : Src) (s : State) : Out := spadLoad g false 4 d a b s
/-- R198. -/
def execLd64 (g : Guard) (d a : SReg) (b : Src) (s : State) : Out := spadLoad g false 8 d a b s
/-- R198. -/
def execSt8 (g : Guard) (d a : SReg) (b : Src) (s : State) : Out := spadStore g 1 d a b s
/-- R198. -/
def execSt16 (g : Guard) (d a : SReg) (b : Src) (s : State) : Out := spadStore g 2 d a b s
/-- R198. -/
def execSt32 (g : Guard) (d a : SReg) (b : Src) (s : State) : Out := spadStore g 4 d a b s
/-- R198. -/
def execSt64 (g : Guard) (d a : SReg) (b : Src) (s : State) : Out := spadStore g 8 d a b s

/-! ### Strided and indexed forms (R199, R200) -/

/-- The stride descriptor (R199): element bytes, element count, signed byte stride. -/
def strideElem (y : Word) : Nat := if y.getLsbD 32 then 8 else 4
def strideStep (y : Word) : Word := (y.setWidth 32).signExtend 64
/-- Element addresses: base + l × stride. -/
def strideAddrs (base y : Word) : List Word := (List.range (256 / strideElem y)).map fun l => base + strideStep y * BitVec.ofNat 64 l
/-- The addresses of active elements. -/
def activeAddrs (mask : Word) (as : List Word) : List Word := as.zipIdx.filterMap fun (a, l) => if mask.getLsbD l then some a else none

/-- A vector load of elements of `n` bytes at addresses (R199, R200). -/
def State.vecLoad (s : State) (g : Guard) (n bound : Nat) (d : VNum) (as : List Word) : State :=
  let act := (activeAddrs (s.active g) as).map BitVec.toNat
  let new := as.map fun a => s.spadReadOn .core s.issue.core a.toNat n
  ((act.foldl (fun t a => t.hearOwn a n) s).touch act).writeLoad (.v d) bound (vMerge (8 * n) (8 * n) (s.active g) new (s.readV d 2))
    ((act.findSome? fun a => s.poisonAt (spadBase s.issue.core + a) n))
    (as.zipIdx.filterMap fun (a, l) => if (s.active g).getLsbD l then some ⟨8 * n * l, 8 * n, a.toNat, n, false, 0, 0⟩ else none)
/-- A vector store of elements of `n` bytes: ascending, so that the highest index remains (R199, R200). -/
def State.vecStore (s : State) (g : Guard) (n : Nat) (d : VNum) (as : List Word) : State :=
  let v := elems (s.readV d 2) (8 * n)
  as.zipIdx.foldl (fun t (a, l) => if (s.active g).getLsbD l then t.stage (.spad a.toNat n (BitVec.ofNat 2048 (v.getD l 0))) else t)
    (s.touch ((activeAddrs (s.active g) as).map BitVec.toNat))

/-- A per-lane slot: checks cover the active elements (R197). The pops of a slot that faults are those that the slots after it count (R65). -/
def laneSlot (pops : Nat) (s : State) (f : State → Except Flt State) : Out :=
  match f s with
  | .ok t => .next (t.addPops pops)
  | .error e => .next ((s.slotStop e).addPops pops)

/-- R199: the checks of a strided form. The stride is tested whatever the predicate leaves active, after the range of the active elements, and its fault
names the base: assumption 60. -/
def stridedCheck (g : Guard) (a : SReg) (b : Src) (s : State) : Except Flt (List Word × Nat) := do
  let y := s.opB b
  let as := strideAddrs (s.opA a) y
  let act := activeAddrs (s.active g) as
  let n := strideElem y
  (match act.find? fun x => decide (spadSize < x.toNat + n) with
    | some x => Except.error ⟨Code.scratchRange, x, 0⟩
    | none => .ok ())
  require (decide ((strideStep y).toNat % n = 0)) Code.memAlign (s.opA a)
  spadChecks act n
  .ok (as, n)
/-- R199. -/
def execLdv (g : Guard) (d : VNum) (a : SReg) (b : Src) (s : State) : Out :=
  laneSlot 0 s fun s => do let (as, n) ← stridedCheck g a b s; .ok (s.vecLoad g n 4 d as)
/-- R199. -/
def execStv (g : Guard) (d : VNum) (a : SReg) (b : Src) (s : State) : Out :=
  laneSlot 0 s fun s => do let (as, n) ← stridedCheck g a b s; .ok (s.vecStore g n d as)
/-- R200: element addresses sA + off[l]. -/
def indexAddrs (s : State) (a : SReg) (b : VSrc) : List Word := (elems (s.vsrc b 1 0 32) 32).map fun o => s.opA a + BitVec.ofNat 64 o
/-- R200. -/
def execLdg (g : Guard) (d : VNum) (a : SReg) (b : VSrc) (s : State) : Out :=
  laneSlot (srcPops b) s fun s => do spadChecks (activeAddrs (s.active g) (indexAddrs s a b)) 4; .ok (s.vecLoad g 4 8 d (indexAddrs s a b))
/-- R200. -/
def execStg (g : Guard) (d : VNum) (a : SReg) (b : VSrc) (s : State) : Out :=
  laneSlot (srcPops b) s fun s => do spadChecks (activeAddrs (s.active g) (indexAddrs s a b)) 4; .ok (s.vecStore g 4 d (indexAddrs s a b))
/-- R201. -/
def execScld (g : Guard) (d : Fin 8) (a : SReg) (b : Src) (s : State) : Out :=
  runSlot g s fun s => do
    let ad := s.opA a + s.opB b
    spadCheck ad 64 64
    .ok (((s.hearOwn ad.toNat 64).touch [ad.toNat]).writeLoad (.sc d) 6 (BitVec.ofNat 2048 (s.spadReadOn .core s.issue.core ad.toNat 64))
      (s.poisonAt (spadBase s.issue.core + ad.toNat) 64) [⟨0, 512, ad.toNat, 64, false, 0, 0⟩])

end Sys2Proof.Machine
end

