-- ==== Sys2Proof/Machine/Global.lean ====
section
/-!
DEFINITION. Sys2Proof/Machine/Global.lean: the global forms of the L and K slots (R202 to R210) and the fences (R220 to R226). A bundle issues its
accesses at its commit; each is performed later at its home (Sys2Proof/Machine/Home.lean).
-/
namespace Sys2Proof.Machine

/-! ### Checks (R197, R206) -/

/-- The launch of a context's task. -/
def State.launchOf (s : State) (c : CoreId) (x : CtxId) : Option Launch :=
  (s.ctx c x).launch.bind fun l => (s.die c.die).launches.find? fun y => y.id == l
/-- The address space of the issuing task (R276). -/
def State.asid (s : State) : BitVec 14 := ((s.launchOf s.issue.core s.issue.ctx).map (·.asid)).getD 0

/-- The walk that the bundle has waited for, if it was of this address (R206). -/
def State.walkedFor (s : State) (va : Nat) : Option WalkEnd :=
  s.me.walked.find? fun w => w.ctx == s.issue.ctx && w.asid == s.asid && w.va == va
/-- The translation of a slot's address: the walk that its bundle has waited for, or a kept translation; otherwise the slot needs a walk, for which the
core freezes (R206, R280, R281). While the checks that need no translation are made, every slot that reaches this point stops here (R74). -/
def State.slotTranslate (s : State) (va use : Nat) : Except Flt Kept :=
  if s.issue.noWalk then .error ⟨Code.needWalk, BitVec.ofNat 64 va, 0⟩
  else
    match s.walkedFor va, s.keptFor s.issue.core.die s.asid va use with
    | some w, _ => (match w.kept with | some k => .ok k | none => .error (walkFault w.code w.level va))
    | none, some k => .ok k
    | none, none => .error ⟨Code.needWalk, BitVec.ofNat 64 va, 0⟩

/-- Checks 2 to 7 of R197: the physical address, with this package's own window resolved, and its translation. -/
def State.globalCheck (s : State) (va : Word) (size : Nat) (permits : MemClass → Bool) (write : Bool) : Except Flt (Nat × Kept) := do
  require (decide (va.toNat < 2 ^ 55)) Code.vaRange va
  require (decide (va.toNat % size = 0)) Code.memAlign va
  let k ← s.slotTranslate va.toNat (s.useNo 32)
  require (permits k.cls) Code.classRefused va
  require (!(write && k.isSealed)) Code.sealedWrite va
  require (s.assigned (k.paOf va.toNat)) Code.paUnmapped (BitVec.ofNat 64 (k.paOf va.toNat))
  .ok (s.localPa (k.paOf va.toNat), k)

/-- The classes that permit an instruction (R187). -/
def anyClass (_ : MemClass) : Bool := true
def amoClass : MemClass → Bool
  | .hbm | .tier | .remote => true
  | _ => false
def nbopClass : MemClass → Bool
  | .hbm | .tier => true
  | _ => false

/-- A task under a guard may not (R207). -/
def State.forbidGuarded (s : State) : Except Flt Unit := require (!s.my.grd) Code.guardForbidden 0

/-! ### Issuing an access -/

/-- HBM or second tier homed on the core's die: the accesses of R215. -/
def State.isDieHomed (s : State) (c : CoreId) (pa : Nat) (cls : MemClass) : Bool :=
  (cls == .hbm || cls == .tier) && s.homeDie pa == c.die

/-- The access with the next number of the core, of the bundle's cycle. -/
def State.newAccess (s : State) (kind : AccKind) (size pa : Nat) (k : Kept) : Access :=
  { id := s.me.nextAcc, ctx := s.issue.ctx, cycle := s.me.cycle, policy := k.policy, pc := s.issue.pc, next := pcPlus s.issue.pc s.issue.len, kind := kind,
    size := size, pa := pa, cls := k.cls, dieHomed := s.isDieHomed s.issue.core pa k.cls, acq := false, rel := false, scope := 0, points := [], data := 0, cmp := 0, mask := 0, bufMask := 0, bufData := 0,
    performed := false, poisoned := false, result := 0 }
/-- The access leaves with the bundle's commit. -/
def State.issueAccess (s : State) (a : Access) : State := (s.mapMe fun k => { k with nextAcc := k.nextAcc + 1 }).stage (.glob a)
/-- A result that the access will supply, due 1,024 cycles after the issue (R73); one for `s0` comes too, late or poisoned like any other (R71, R195), and
is discarded (R64). -/
def State.awaitResult (s : State) (d : SReg) (id : Nat) : State :=
  s.mapMe fun k => { k with inflight := k.inflight ++ [⟨s.issue.ctx, .s d, k.cycle, k.cycle + 1024, false, false, none, some id, none, []⟩] }

/-- The buffered bytes of an 8-byte unit of a guarded task: mask and data (R207). -/
def Core.buffered (k : Core) (x : CtxId) (pa : Nat) : BitVec 8 × Word :=
  match k.mitten.find? fun m => m.ctx == x && m.pa == pa / 8 * 8 with
  | some m => (m.mask >>> (pa % 8), m.data >>> (8 * (pa % 8)))
  | none => (0, 0)

/-- The core's own scratchpad, named through the on-chip window (R202). -/
def State.ownSpad (s : State) (pa : Nat) : Option Nat :=
  if spadBase s.issue.core ≤ pa ∧ pa < spadBase s.issue.core + spadSize then some (pa - spadBase s.issue.core) else none

/-- The core keeps no lease copy that is older than a write other than the host's: each of its later loads of such a line goes to the home bank, and finds
there what any acquire, fence or observed transfer has made visible (R216, R222, R223, R225, R227, R229). The stores of the die's own contexts are among
these writes where `clocked`: logical time alone gives their order to accesses of one die (R215). A copy that is older than a host write only may go on
serving plain loads for the time of R218 (R216, R447). -/
def State.dropStale (s : State) (c : CoreId) (clocked : Bool) : State :=
  s.mapCore c fun k => { k with copies := k.copies.filter fun y =>
    ((s.die c.die).landed.lookup y.line).all (fun t => decide (t ≤ y.wts)) && (!clocked || ((s.die c.die).stored.lookup y.line).all fun t => decide (t ≤ y.wts)) }

/-- The code of a scope (R220). -/
def scopeCode : Scope → Nat
  | .ctx => 0
  | .core => 1
  | .clu => 2
  | .die => 3
  | .pkg => 4
  | .grp => 5
/-- An acquire at its scope synchronises with the releases that its read finds (R222). -/
def State.acquires (s : State) (c : CoreId) (x : CtxId) (hs : List Heard) : State :=
  match hs with
  | [] => s
  | hs => s.mapCtx c x fun y => { y with sync := { y.sync with heard := joinHeard y.sync.heard hs } }

/-- A checked load, an acquire of a scope or a plain one: from the own scratchpad at issue (R211), otherwise an access. -/
def State.globalLoad (s : State) (signed : Bool) (n : Nat) (d : SReg) (acq : Option Scope) (pa : Nat) (k : Kept) : State :=
  let buf := if s.my.grd then s.me.buffered s.issue.ctx pa else (0, 0)
  match s.ownSpad pa with
  | some a =>
    let v := leNat ((leBytes n (s.spadReadOn .core s.issue.core a n)).zipIdx.map fun (b, i) => if buf.1.getLsbD i then BitVec.ofNat 8 (buf.2.toNat / 256 ^ i) else b)
    let t := (s.touch [a]).writeLoad (.s d) 1024 ((extend signed n v).setWidth 2048) (s.poisonAt pa n) [⟨0, 64, a, n, signed, buf.1, buf.2⟩]
    match acq with
    | some sc => (t.acquires s.issue.core s.issue.ctx (s.heardAt pa n (scopeCode sc) s.me.nextAcc)).dropStale s.issue.core true
    | none => t.hear s.issue.core s.issue.ctx pa n
  | none =>
    let a := { s.newAccess (.load signed) n pa k with acq := acq.isSome, scope := (acq.map scopeCode).getD 0, bufMask := buf.1, bufData := buf.2 }
    let t := (s.issueAccess a).awaitResult d a.id
    if acq.isSome then t.mapIssue fun i => { i with acqWait := i.acqWait ++ [a.id] } else t
/-- A checked store, a release at a scope or a plain one: buffered under a guard (R207), in the own scratchpad at commit, otherwise an access. -/
def State.globalStore (s : State) (n : Nat) (v : Word) (rel : Option Scope) (pa : Nat) (k : Kept) : State :=
  if s.my.grd then s.stage (.buffered pa n k.policy (v.setWidth 2048))
  else
    match s.ownSpad pa with
    | some a =>
      let t := (s.touch [a]).stage (.spad a n (v.setWidth 2048))
      (match rel with
        | some sc => t.stage (.flag pa n [(scopeCode sc, s.tick)])
        | none => t)
    | none =>
      s.issueAccess { s.newAccess .store n pa k with
        data := v.setWidth 2048, rel := rel.isSome, scope := (rel.map scopeCode).getD 0, points := rel.toList.map fun sc => (scopeCode sc, s.tick) }

/-- R202. -/
def ldxSlot (g : Guard) (signed : Bool) (n : Nat) (d a : SReg) (b : Src) (s : State) : Out :=
  runSlot g s fun s => do
    let (pa, k) ← s.globalCheck (s.opA a + s.opB b) n anyClass false
    .ok (s.globalLoad signed n d none pa k)
/-- R202, R205. -/
def stxSlot (g : Guard) (n : Nat) (d a : SReg) (b : Src) (s : State) : Out :=
  runSlot g s fun s => do
    let (pa, k) ← s.globalCheck (s.opA a + s.opB b) n anyClass true
    .ok (s.globalStore n (s.opD d) none pa k)

/-- R202. -/
def execLdxI8 (g : Guard) (d a : SReg) (b : Src) (s : State) : Out := ldxSlot g true 1 d a b s
/-- R202. -/
def execLdxN8 (g : Guard) (d a : SReg) (b : Src) (s : State) : Out := ldxSlot g false 1 d a b s
/-- R202. -/
def execLdxI16 (g : Guard) (d a : SReg) (b : Src) (s : State) : Out := ldxSlot g true 2 d a b s
/-- R202. -/
def execLdxN16 (g : Guard) (d a : SReg) (b : Src) (s : State) : Out := ldxSlot g false 2 d a b s
/-- R202. -/
def execLdxI32 (g : Guard) (d a : SReg) (b : Src) (s : State) : Out := ldxSlot g true 4 d a b s
/-- R202. -/
def execLdxN32 (g : Guard) (d a : SReg) (b : Src) (s : State) : Out := ldxSlot g false 4 d a b s
/-- R202. -/
def execLdx64 (g : Guard) (d a : SReg) (b : Src) (s : State) : Out := ldxSlot g false 8 d a b s
/-- R202. -/
def execStx8 (g : Guard) (d a : SReg) (b : Src) (s : State) : Out := stxSlot g 1 d a b s
/-- R202. -/
def execStx16 (g : Guard) (d a : SReg) (b : Src) (s : State) : Out := stxSlot g 2 d a b s
/-- R202. -/
def execStx32 (g : Guard) (d a : SReg) (b : Src) (s : State) : Out := stxSlot g 4 d a b s
/-- R202. -/
def execStx64 (g : Guard) (d a : SReg) (b : Src) (s : State) : Out := stxSlot g 8 d a b s

/-! ### Waiting for earlier accesses (R220, R221, R224 to R226) -/

/-- The coverage of a scope for an issuer (R220). -/
def State.coverage (s : State) (c : CoreId) (sc : Scope) (a : Access) : Bool :=
  match sc with
  | .ctx | .core | .clu | .die => a.cls != .remote && s.homeDie a.pa == c.die
  | .pkg => a.cls != .remote
  | .grp => true
def isNb : AccKind → Bool
  | .nbop _ => true
  | _ => false
def isStore : AccKind → Bool
  | .store => true
  | _ => false
/-- The access is not performed as far as its issuer knows: one that leaves the package counts until its reply (R220, R380). -/
def Access.isOpen (a : Access) : Bool := !a.performed || a.cls == .remote
/-- What a scope adds to the wait for performed accesses (R220): at package scope the acknowledgement of a store that has crossed the die bridge, at group
scope that of every store. -/
def State.ackNeeded (s : State) (sc : Scope) (a : Access) : Bool :=
  isStore a.kind && (sc == .grp || (sc == .pkg && s.homeDie a.pa != s.issue.core.die))
/-- Some covered CORE access of earlier bundles of the context is not performed, or not acknowledged where the scope asks for it (R220, R221). -/
def State.unperformed (s : State) (sc : Scope) : Bool :=
  s.me.accesses.any fun a =>
    a.ctx == s.issue.ctx && !isNb a.kind && s.coverage s.issue.core sc a && (a.isOpen || s.ackNeeded sc a)

/-- R203, R221: the acquire's value is awaited before any later bundle. -/
def acquireSlot (g : Guard) (n : Nat) (d a : SReg) (sc : Scope) (s : State) : Out :=
  runSlot g s fun s => do
    let (pa, k) ← s.globalCheck (s.opA a) n anyClass false
    .ok (s.globalLoad false n d (some sc) pa k)
/-- R203, R221: the release store issues once the covered accesses are performed. -/
def releaseSlot (g : Guard) (n : Nat) (d a : SReg) (sc : Scope) (s : State) : Out :=
  runSlot g s fun s => do
    let (pa, k) ← s.globalCheck (s.opA a) n anyClass true
    if s.unperformed sc then .ok (s.wait .fence) else .ok (s.globalStore n (s.opD d) (some sc) pa k)
/-- R203. A 32-bit acquire zero-extends. -/
def execLdxAcq32 (g : Guard) (d a : SReg) (sc : Scope) (s : State) : Out := acquireSlot g 4 d a sc s
/-- R203. A 32-bit acquire zero-extends. -/
def execLdxAcq64 (g : Guard) (d a : SReg) (sc : Scope) (s : State) : Out := acquireSlot g 8 d a sc s
/-- R203. -/
def execStxRel32 (g : Guard) (d a : SReg) (sc : Scope) (s : State) : Out := releaseSlot g 4 d a sc s
/-- R203. -/
def execStxRel64 (g : Guard) (d a : SReg) (sc : Scope) (s : State) : Out := releaseSlot g 8 d a sc s

/-- A fence at a scope: each later store of the context is a release of what came before it, and the loads before it are acquires (R221, R224). -/
def Sync.fence (y : Sync) (sc : Scope) (tick acc : Nat) : Sync :=
  { y with
    rels := (scopeCode sc, tick) :: y.rels.filter fun r => r.1 != scopeCode sc
    heard := joinHeard y.heard (y.half.map fun h => { h with acq := scopeCode sc, acc := acc }) }
/-- R224: the wait of a release, and the effect of an acquire. Every earlier acquire has returned, because the core freezes until it does (R221). -/
def execFence (g : Guard) (sc : Scope) (s : State) : Out :=
  plainSlot g s fun s =>
    if s.unperformed sc then s.wait .fence
    else (s.dropStale s.issue.core true).mapMy fun y => { y with sync := y.sync.fence sc s.tick s.me.nextAcc }
/-- The CORE and NB parts of a producer mask wait (R225). -/
def State.fenceOpen (s : State) (p : BitVec 6) : Bool :=
  s.me.accesses.any fun a => a.ctx == s.issue.ctx && (if isNb a.kind then p.getLsbD 5 && !a.performed else p.getLsbD 0 && a.isOpen)
/-- R225: bits 0 CORE, 2 MTX and 5 NB of the producer mask wait, all at the same time; the other paths' transfers are complete once observed (R227). What
the fence orders is recorded with the scratchpad writes of the core (R228), and a later load of the core is served from no older copy. -/
def execXfence (g : Guard) (p q : BitVec 6) (s : State) : Out :=
  plainSlot g s fun s =>
    if s.fenceOpen p then s.wait (if p.getLsbD 2 && s.me.mtx.isSome then .fenceMatrix else .fence)
    else if p.getLsbD 2 && s.me.mtx.isSome then s.wait .matrix
    else
      let t := s.mapMe fun k => k.order s.issue.ctx p q
      if q.getLsbD 0 then t.dropStale s.issue.core false else t
/-- R226. -/
def execFenceIo (g : Guard) (s : State) : Out :=
  runSlot g s fun s => do
    s.forbidGuarded
    .ok (if s.me.accesses.any fun a => a.ctx == s.issue.ctx && isStore a.kind && a.isOpen then s.wait .fence else s)

/-! ### What a synchronised context sees (R222, R389) -/

/-- A value that a context has stored stands in memory: a release of what came before `points`, or no release; any other value of a store there is past
(R221, R222). -/
def State.raiseFlag (s : State) (c : CoreId) (x : CtxId) (pa n v : Nat) (points : List (Nat × Nat)) : State :=
  { s with flags := (if points.isEmpty then [] else [⟨pa, n, v % 2 ^ (8 * n), c, x, points⟩]) ++ s.flags.filter fun f => !overlaps f.pa f.size pa n }
/-- The contexts of a core are among the observers of a scope for a context of another core (R220). -/
def observes (sc : Nat) (a : CoreId) (x : CtxId) (b : CoreId) (y : CtxId) : Bool :=
  match sc with
  | 0 => a == b && x == y
  | 1 => a == b
  | 2 => a.cluster == b.cluster
  | 3 => a.die == b.die
  | _ => true
/-- An address of this package lies in the coverage of a scope for an issuer (R220). -/
def State.covered (s : State) (sc : Nat) (c : CoreId) (pa : Nat) : Bool := decide (4 ≤ sc) || s.homeDie pa == c.die
/-- A release that a context has synchronised with makes a write of a core visible to it (R222): a CORE store made before the release, or a transfer that the
releasing context had observed complete (R221), at an address that both scopes cover. -/
def State.madeVisible (s : State) (c : CoreId) (x : CtxId) (k : CoreId) (h : Heard) (r : Fresh) : Bool :=
  h.core == k && observes h.rel k h.ctx c x && observes h.acq c x k h.ctx && s.covered h.rel k r.a && s.covered h.acq c r.a &&
    ((r.path == .core && r.ctx == h.ctx && decide (r.at_ < h.at_)) || r.seen.any fun o => o.1 == h.ctx && decide (o.2 < h.at_))
/-- Of the writes of a core `k`, those that a read of a context on a path is not ordered after, as far as the acquires before its access `acc` go (R222). -/
def State.openTo (s : State) (c : CoreId) (x : CtxId) (acc : Nat) (q : Path) (k : CoreId) (rs : List Fresh) : List Fresh :=
  (settled (fun r => (s.ctx c x).sync.heard.any fun h => decide (h.acc ≤ acc) && s.madeVisible c x k h r) (1#6 <<< q.bit) rs).filter fun r => r.left.getLsbD q.bit
/-- The outputs of another core's transform that a read of a context in that core's scratchpad is not ordered after (R179). -/
def State.farOutputs (s : State) (c : CoreId) (x : CtxId) (q : Path) (pa : Nat) : List Fresh :=
  if h : 0x010000000000 ≤ pa ∧ (pa - 0x010000000000) / 0x200000 < 512 then
    let k : CoreId := ⟨(pa - 0x010000000000) / 0x200000, h.2⟩
    if k = c then [] else (s.openTo c x (s.core c).nextAcc q k (s.core k).recent).filter fun r => r.anyVal
  else []

/-! ### Atomics (R208) and near-bank operations (R209) -/

/-- R208: the old value returns to sD. -/
def amoSlot (g : Guard) (op : AmoOp) (n : Nat) (d a : SReg) (b : Src) (s : State) : Out :=
  runSlot g s fun s => do
    s.forbidGuarded
    let (pa, k) ← s.globalCheck (s.opA a) n amoClass true
    let acc := { s.newAccess (.amo op) n pa k with data := (s.opB b).setWidth 2048, cmp := s.opD d }
    .ok ((s.issueAccess acc).awaitResult d acc.id)
/-- R208. -/
def execAmoAdd32 (g : Guard) (d a : SReg) (b : Src) (s : State) : Out := amoSlot g .add 4 d a b s
/-- R208. -/
def execAmoAdd64 (g : Guard) (d a : SReg) (b : Src) (s : State) : Out := amoSlot g .add 8 d a b s
/-- R208. -/
def execAmoMin32 (g : Guard) (d a : SReg) (b : Src) (s : State) : Out := amoSlot g .min 4 d a b s
/-- R208. -/
def execAmoMin64 (g : Guard) (d a : SReg) (b : Src) (s : State) : Out := amoSlot g .min 8 d a b s
/-- R208. -/
def execAmoMax32 (g : Guard) (d a : SReg) (b : Src) (s : State) : Out := amoSlot g .max 4 d a b s
/-- R208. -/
def execAmoMax64 (g : Guard) (d a : SReg) (b : Src) (s : State) : Out := amoSlot g .max 8 d a b s
/-- R208. -/
def execAmoAnd64 (g : Guard) (d a : SReg) (b : Src) (s : State) : Out := amoSlot g .and 8 d a b s
/-- R208. -/
def execAmoOr64 (g : Guard) (d a : SReg) (b : Src) (s : State) : Out := amoSlot g .or 8 d a b s
/-- R208. -/
def execAmoXor64 (g : Guard) (d a : SReg) (b : Src) (s : State) : Out := amoSlot g .xor 8 d a b s
/-- R208. -/
def execAmoSwap32 (g : Guard) (d a : SReg) (b : Src) (s : State) : Out := amoSlot g .swap 4 d a b s
/-- R208. -/
def execAmoSwap64 (g : Guard) (d a : SReg) (b : Src) (s : State) : Out := amoSlot g .swap 8 d a b s
/-- R208. -/
def execAmoCas64 (g : Guard) (d a : SReg) (b : Src) (s : State) : Out := amoSlot g .cas 8 d a b s
/-- R208. -/
def execAmoFaddF32 (g : Guard) (d a : SReg) (b : Src) (s : State) : Out := amoSlot g .fadd 4 d a b s
/-- R208. -/
def execAmoFaddF64 (g : Guard) (d a : SReg) (b : Src) (s : State) : Out := amoSlot g .fadd 8 d a b s

/-- R209: every check is made whatever the predicate leaves active. -/
def nbopSlot (g : Guard) (op : NbOp) (d : VNum) (a : SReg) (b : Src) (s : State) : Out :=
  laneSlot 0 s fun s => do
    s.forbidGuarded
    let (pa, k) ← s.globalCheck (s.opA a + s.opB b) 256 nbopClass true
    .ok (s.issueAccess { s.newAccess (.nbop op) 256 pa k with data := s.readV d 2, mask := s.active g })
/-- R209. -/
def execNbopAddF32 (g : Guard) (d : VNum) (a : SReg) (b : Src) (s : State) : Out := nbopSlot g .addF32 d a b s
/-- R209. -/
def execNbopAddF64 (g : Guard) (d : VNum) (a : SReg) (b : Src) (s : State) : Out := nbopSlot g .addF64 d a b s
/-- R209. -/
def execNbopAddI32 (g : Guard) (d : VNum) (a : SReg) (b : Src) (s : State) : Out := nbopSlot g .addI32 d a b s
/-- R209. -/
def execNbopAddI64 (g : Guard) (d : VNum) (a : SReg) (b : Src) (s : State) : Out := nbopSlot g .addI64 d a b s
/-- R209. -/
def execNbopMaxF32 (g : Guard) (d : VNum) (a : SReg) (b : Src) (s : State) : Out := nbopSlot g .maxF32 d a b s
/-- R209. -/
def execNbopMinF32 (g : Guard) (d : VNum) (a : SReg) (b : Src) (s : State) : Out := nbopSlot g .minF32 d a b s
/-- R209. -/
def execNbopScaleF32 (g : Guard) (d : VNum) (a : SReg) (b : Src) (s : State) : Out := nbopSlot g .scaleF32 d a b s
/-- R209. -/
def execNbopScaleF64 (g : Guard) (d : VNum) (a : SReg) (b : Src) (s : State) : Out := nbopSlot g .scaleF64 d a b s

end Sys2Proof.Machine
end

