-- ==== Sys2Proof/Machine/Lines.lean ====
section
/-!
DEFINITION. Sys2Proof/Machine/Lines.lean: logical time (R216, R217): the timestamps of 128-byte lines, the floors of banks, and the `%pts` rules.
-/
namespace Sys2Proof.Machine

/-- The 128-byte line of an address. -/
def lineOf (pa : Nat) : Nat := pa / 128

/-- The floor of the bank of a line (R216). -/
def Die.floorOf (d : Die) (line : Nat) : Nat := (d.floors.lookup (bankOf (line * 128))).getD 0
/-- A line's tag; a line whose superblock is not in common memory has the bank's floor as both timestamps (R216). -/
def Die.tag (d : Die) (line : Nat) : LineTag :=
  (d.lines.find? fun t => t.line == line).getD ⟨line, d.floorOf line, d.floorOf line, false, false⟩
def Die.putTag (d : Die) (t : LineTag) : Die := { d with lines := t :: d.lines.filter fun u => u.line != t.line }

/-- The largest timestamp that a line tag or a bank floor of the die holds: its release clock (R217). -/
def Die.clock (d : Die) : Nat :=
  (d.lines.foldl (fun m t => max m (max t.wts t.rts)) 0) |> d.floors.foldl (fun m f => max m f.2)

/-- A load of a die-homed line by a context's clock (R216): the new clock. `kept` says that the page is write-back (R192). -/
def Die.stampLoad (d : Die) (line pts lease : Nat) (kept : Bool) : Nat × Die :=
  let t := d.tag line
  let p := max pts t.wts
  (p, d.putTag { t with rts := max t.rts (p + lease), held := t.held || kept })
/-- A store or an atomic by a context's clock (R216); only write-back pages leave the line dirty (R192). -/
def Die.stampStore (d : Die) (line pts : Nat) (kept : Bool) : Nat × Die :=
  let t := d.tag line
  let p := max pts (t.rts + 1)
  (p, { d.putTag { t with wts := p, rts := p, dirty := t.dirty || kept, held := t.held || kept } with stored := (line, p) :: d.stored.filter fun x => x.1 != line })
/-- A store by a writer with no clock of its own (R216); `host` is the host. -/
def Die.stampOther (d : Die) (line : Nat) (kept host : Bool) : Die :=
  let t := d.tag line
  { d.putTag { t with wts := t.rts + 1, rts := t.rts + 1, dirty := t.dirty || kept, held := t.held || kept } with
    landed := if host then d.landed else (line, t.rts + 1) :: d.landed.filter fun x => x.1 != line }

/-- The superblock of an address leaves common memory: its four tags go, and the floor of its bank rises to their timestamps (R191, R216). -/
def Die.evict (d : Die) (pa : Nat) : Die :=
  let mine := d.lines.filter fun t => t.line / 4 == pa / 512
  let top := mine.foldl (fun m t => max m (max t.wts t.rts)) (d.floorOf (lineOf pa))
  let b := bankOf pa
  { d with lines := d.lines.filter fun t => t.line / 4 != pa / 512, floors := (b, top) :: d.floors.filter fun f => f.1 != b }

/-- HBM or second tier of this package: the addresses whose lines have timestamps (R191). -/
def State.isLined (s : State) (pa : Nat) : Bool :=
  match s.classAt pa with
  | some .hbm | some .tier => true
  | _ => false

/-- Bytes written by a writer that is no context (R216); `kept` says that its page is write-back (R192), `host` that the writer is the host. -/
def State.writeBy (s : State) (kept host : Bool) (pa : Nat) (b : List Byte) : State :=
  if b = [] then s
  else if s.isLined pa then
    ((List.range ((pa % 128 + b.length + 127) / 128)).foldl
      (fun t i => t.mapDie (s.homeDie pa) fun d => d.stampOther (lineOf pa + i) kept host) s).memWrite pa b
  else s.memWrite pa b
/-- Bytes written by an engine, a fabric delivery, another package, or Patante (R216). -/
def State.otherWrite (s : State) (pa : Nat) (b : List Byte) : State := s.writeBy true false pa b

/-! ### Program order (R214, R215) -/

/-- The place of an access within its bundle (R214): an acquire first, then a release, then loads before stores and atomics. Assumption 61. -/
def Access.phase (a : Access) : Nat :=
  match a.kind with
  | .load _ => if a.acq then 0 else 2
  | _ => if a.rel then 1 else 3
/-- Program order (R214): earlier bundles first; within one bundle by kind, and the L slot's access before the K slot's of the same kind. -/
def Access.before (b a : Access) : Bool :=
  decide (b.cycle < a.cycle) || (b.cycle == a.cycle && (decide (b.phase < a.phase) || (b.phase == a.phase && decide (b.id < a.id))))
/-- An earlier access of the same context comes first: nothing of the context goes on before the value of an acquire has come (R214, R222), die-homed
accesses keep program order (R215), accesses to the same bytes keep it (R213), and so do stores to peers behind one port (R226) and packets to one 256-byte
chunk of another package (R378). -/
def Core.waitsFor (k : Core) (s : State) (a : Access) : Bool :=
  k.accesses.any fun b => b.ctx == a.ctx && b.before a && (b.acq || !b.performed && !isNb b.kind && !isNb a.kind &&
    ((a.dieHomed && b.dieHomed) || overlaps a.pa a.size b.pa b.size || (a.cls == .remote && b.cls == .remote && a.pa / 256 == b.pa / 256) ||
      (a.cls == .peer && b.cls == .peer && isStore a.kind && isStore b.kind && (s.peerEntry a.pa).port == (s.peerEntry b.pa).port)))

/-! ### Clocks -/

/-- `%pts` of a context is raised to at least a value (R234). -/
def State.raisePts (s : State) (c : CoreId) (x : CtxId) (v : Nat) : State :=
  s.mapCtx c x fun k => { k with pts := BitVec.ofNat 64 (max k.pts.toNat v) }
/-- A raise past every timestamp of the context's die, which is at least those that R231 and R234 name (assumption 24). -/
def State.raisePtsAll (s : State) (c : CoreId) (x : CtxId) : State := s.raisePts c x (s.die c.die).clock

/-- `%pts` grows by one at the end of every 256 cycles in which the context was Running (R217). -/
def Ctx.ptsTick (k : Ctx) : Ctx := if k.runCount < 256 then k else { k with runCount := k.runCount - 256, pts := k.pts + 1 }
/-- PTS_TICK (R217). -/
def execPtsTick (c : CoreId) (x : CtxId) (s : State) : Out := .next (s.mapCtx c x Ctx.ptsTick)

end Sys2Proof.Machine
end

