-- ==== Sys2Proof/Machine/Ready.lean ====
section
/-!
DEFINITION. Sys2Proof/Machine/Ready.lean: what contexts block on (R18) and when they become ready again (R17): transaction barriers (R305, R306), channels
(R261, R262), domain barrier counters (R321), the copy queue and the shadow sets (R91).
-/
namespace Sys2Proof.Machine

/-! ### Transaction barriers (R305, R306) -/

/-- The 128 bits of a barrier (R305), reserved bits included. -/
structure Barrier where
  sect : BitVec 32
  reload : BitVec 16
  arr : BitVec 16
  res54 : BitVec 54
  err : Bool
  ovf : Bool
  res4 : BitVec 4
  phase : BitVec 4
deriving DecidableEq, Repr

def Barrier.ofNat (v : Nat) : Barrier :=
  ⟨BitVec.ofNat 32 (v / 2 ^ 96), BitVec.ofNat 16 (v / 2 ^ 80), BitVec.ofNat 16 (v / 2 ^ 64), BitVec.ofNat 54 (v / 2 ^ 10), bit v 9, bit v 8,
    BitVec.ofNat 4 (v / 16), BitVec.ofNat 4 v⟩
def Barrier.toNat (b : Barrier) : Nat :=
  b.sect.toNat * 2 ^ 96 + b.reload.toNat * 2 ^ 80 + b.arr.toNat * 2 ^ 64 + b.res54.toNat * 2 ^ 10 + b.err.toNat * 512 + b.ovf.toNat * 256 +
    b.res4.toNat * 16 + b.phase.toNat

/-- Whether an update kind tests for the end of the phase (R306). -/
def UpdKind.completes : UpdKind → Bool
  | .overflow | .flag => false
  | _ => true
def Barrier.arrive (b : Barrier) (n : Nat) : Barrier := { b with arr := BitVec.ofNat 16 (b.arr.toNat - n) }
/-- The counts and flags that an update changes (R306). -/
def Barrier.change (b : Barrier) (k : UpdKind) (n : Nat) : Barrier :=
  match k with
  | .arrive => if b.arr.toNat < n then { b with err := true, arr := 0 } else b.arrive n
  | .arriveErr => { b.arrive n with err := true }
  | .sector => { b with sect := b.sect - BitVec.ofNat 32 n }
  | .expect => { b with sect := b.sect + BitVec.ofNat 32 n }
  | .error => { b with sect := b.sect - BitVec.ofNat 32 n, err := true }
  | .flag => { b with err := true }
  | .overflow => { b with ovf := true }
/-- The end of a phase (R306). -/
def Barrier.complete (b : Barrier) : Barrier := if b.arr = 0 ∧ b.sect = 0 then { b with phase := b.phase + 1, arr := b.reload } else b
/-- Update (R306). -/
def Barrier.update (b : Barrier) (k : UpdKind) (n : Nat) : Barrier := if k.completes then (b.change k n).complete else b.change k n

/-- A barrier as it stands. -/
def State.barrier (s : State) (c : CoreId) (a : Nat) : Barrier := .ofNat (s.spadRead c a 16)
def State.putBarrier (s : State) (c : CoreId) (a : Nat) (b : Barrier) : State := s.spadWrite c a (leBytes 16 b.toNat)

/-! ### Channels (R261, R289) -/

def Launch.chan (l : Launch) (ch : Nat) : Option Chan := l.chans.find? fun c => c.idx == ch
def Launch.putChan (l : Launch) (c : Chan) : Launch := { l with chans := l.chans.map fun d => if d.idx = c.idx then c else d }
def Die.mapLaunch (d : Die) (id : Nat) (f : Launch → Launch) : Die := { d with launches := d.launches.map fun l => if l.id = id then f l else l }
def State.mapLaunch (s : State) (d : DieId) (id : Nat) (f : Launch → Launch) : State := s.mapDie d fun x => x.mapLaunch id f
/-- A task of the launch has retired. -/
def Launch.hasRetired (l : Launch) (task : Nat) : Bool := l.retired.contains task
/-- The tasks of a grid, and its core groups (R13, R14). -/
def Launch.tasks (l : Launch) : Nat := l.gx * l.gy * l.gz
def Launch.groups (l : Launch) : Nat := (l.tasks + max 1 l.n - 1) / max 1 l.n
/-- A context that runs an exact task of its launch: its group number stands past the launch's own (R351). -/
def Launch.isExact (l : Launch) (x : Ctx) : Bool := decide (l.groups ≤ x.group)
/-- Credits of a channel as its producer knows them (R262). -/
def Chan.free (c : Chan) : Nat := c.depth - (c.sent - c.known)

/-! ### Domains (R23, R25) and domain barrier counters (R321) -/

/-- The index of a context's domain at a level (R25). -/
def domainIndex (c : CoreId) (x : Ctx) (level : Nat) : Nat :=
  match level with
  | 1 => x.group
  | 2 => c.val / 8 % 32
  | 3 => 0
  | _ => bits x.dmem.toNat (12 * (level - 4)) 12

/-- The counter of a domain, or a fresh one. -/
def Die.counter (d : Die) (launch level idx : Nat) : DCounter :=
  (d.counters.find? fun k => k.launch == launch && k.level == level && k.idx == idx).getD ⟨launch, level, idx, 1, 1, 0, 0, false, false, []⟩
def Die.putCounter (d : Die) (k : DCounter) : Die :=
  { d with counters := k :: d.counters.filter fun j => !(j.launch == k.launch && j.level == k.level && j.idx == k.idx) }
/-- The counter that a `dbar` of a context at a level uses. -/
def State.counterOf (s : State) (c : CoreId) (x : CtxId) (level : Nat) : DCounter :=
  (s.die c.die).counter ((s.ctx c x).launch.getD 0) level (domainIndex c (s.ctx c x) level)

/-- What a context has issued so far (R322). -/
def State.markOf (s : State) (c : CoreId) (x : CtxId) : Mark :=
  { core := c, ctx := x, task := (s.ctx c x).task.toNat, acc := (s.core c).nextAcc, coll := s.pkg.nextColl, cmds := ((s.core c).copyq.filter fun q => q.ctx == x).map (·.tag),
    chans := match s.launchOf c x with
      | none => []
      | some l => (l.chans.filter fun h => h.prod == (s.ctx c x).task.toNat).map fun h => (h.idx, h.sent) }
/-- A channel has elements on their way that were sent before a mark, or any at all where there is none (R27, R322). -/
def Chan.openBefore (h : Chan) (m : Option Mark) : Bool :=
  !h.transit.isEmpty && m.all fun m => m.chans.any fun p => p.1 == h.idx && decide (h.sent - h.transit.length < p.2)
/-- A transfer of a context, issued before a mark, is not complete (R27): a store, atomic or near-bank operation, a copy command, a channel element on its
way, a multicast, a reduction, a drained store of a guard commit, or a write that another package has not acknowledged (R226). -/
def State.openBefore (s : State) (c : CoreId) (x : CtxId) (m : Mark) : Bool :=
  (s.core c).accesses.any (fun a => a.ctx == x && decide (a.id < m.acc) && a.isOpen && (match a.kind with | .load _ => false | _ => true))
  || (s.core c).copyq.any (fun q => q.ctx == x && m.cmds.contains q.tag)
  || (match s.launchOf c x with
      | none => false
      | some l => l.chans.any fun h => h.prod == (s.ctx c x).task.toNat && h.openBefore (some m))
  || s.pkg.colls.any (fun o => o.core == c && o.ctx == x && decide (o.id < m.coll))
  || (s.core c).mittenDrain.any (fun m => m.ctx == x)
  || (s.core c).sent.any (fun w => w.ctx == x && decide (w.id < m.acc))
/-- A transfer of a context is not complete (R27). -/
def State.transfersOpen (s : State) (c : CoreId) (x : CtxId) : Bool := s.openBefore c x (s.markOf c x)
/-- What the end of a communication phase waits for: the transfers of a member and, since it acts as a release, its earlier loads (R26, R229). -/
def State.phaseOpen (s : State) (c : CoreId) (x : CtxId) (m : Mark) : Bool :=
  s.openBefore c x m || (s.core c).accesses.any fun a => a.ctx == x && decide (a.id < m.acc) && a.isOpen

/-! ### Readiness (R17, R18) -/

/-- The engine sets of a core (R90). -/
def Core.eng (k : Core) : Eng → EngineRegs
  | .copy => k.eng0
  | .xft => k.eng1
  | .xpose => k.eng2
def Core.setEng (k : Core) (e : Eng) (r : EngineRegs) : Core :=
  match e with
  | .copy => { k with eng0 := r }
  | .xft => { k with eng1 := r }
  | .xpose => { k with eng2 := r }
/-- A shadow set is free for a context: neither claimed by another nor awaiting its swap (R91). -/
def EngineRegs.freeFor (r : EngineRegs) (x : CtxId) : Bool := (r.claim == none || r.claim == some x) && r.swap == none

/-- The condition that blocks a context has resolved (R17, R18). -/
def State.resolved (s : State) (c : CoreId) (x : CtxId) : BlockOn → Bool
  | .tbwait a k => (s.barrier c a).phase != k
  | .chanEmpty ch => match (s.launchOf c x).bind (·.chan ch) with | some h => !h.fifo.isEmpty | none => true
  | .chanFull ch =>
    match s.launchOf c x with
    | some l => match l.chan ch with | some h => h.free != 0 || l.hasRetired h.cons | none => true
    | none => true
  | .dbar => match (s.ctx c x).dbarPend with | some p => (s.counterOf c x p.level.val).gen != p.gen | none => true
  | .transfers => !s.phaseOpen c x (s.markOf c x)
  | .copyFull => decide ((s.core c).copyq.length < 512)
  | .shadow e => ((s.core c).eng e).freeFor x

/-- A blocked context whose condition has resolved becomes ready, with the present cycle as its ready time (R17); one that a request holds stays Blocked until
it is saved, and reissues its bundle after its restore (R367). -/
def State.wakeCtx (s : State) (c : CoreId) (x : CtxId) : State :=
  let k := s.ctx c x
  match k.st, k.on_ with
  | .blocked, some b => if s.resolved c x b && !k.held then s.mapCtx c x fun k => { k with st := .ready, on_ := none, readyAt := (s.core c).cycle } else s
  | _, _ => s
def ctxIds : List CtxId := [0, 1, 2, 3]
/-- Every context of a core that can go on becomes ready. -/
def State.wake (s : State) (c : CoreId) : State := ctxIds.foldl (fun t x => t.wakeCtx c x) s
/-- A write at a physical address may let a context of the core go on, and contexts of the core whose scratchpad it is (R313). -/
def State.wakeAt (s : State) (c : CoreId) (pa : Nat) : State :=
  if h : 0x010000000000 ≤ pa ∧ (pa - 0x010000000000) / 0x200000 < 512 then (s.wake ⟨(pa - 0x010000000000) / 0x200000, h.2⟩).wake c else s.wake c
/-- Every core of a list. -/
def State.wakeAll (s : State) (cs : List CoreId) : State := cs.foldl State.wake s
/-- The cores that hold a task of a launch. -/
def State.coresOf (s : State) (d : DieId) (launch : Nat) : List CoreId :=
  (List.finRange 512).filter fun c => decide (c.die = d) && ctxIds.any fun x => (s.ctx c x).st != .free && (s.ctx c x).launch == some launch

/-- Where the image of a context of a saved group lies (R370). -/
def SavedGroup.ctxBase (g : SavedGroup) (x : CtxId) : Nat := g.area + 0x10000 + 0x4000 * x.val
/-- The `%pts` that R229 has raised a saved context to. -/
def SavedGroup.clockOf (g : SavedGroup) (x : CtxId) : Nat := g.clocks.foldl (fun m p => if p.1 = x then max m p.2 else m) 0
/-- The saved group of a launch on a core (R372). -/
def State.savedGroup (s : State) (c : CoreId) (launch : Option Nat) : Option SavedGroup :=
  (s.die c.die).saved.find? fun g => g.core == c && launch == some g.launch
/-- Where a delivery of a launch's tasks to a core's scratchpad goes: the scratchpad, or the image of the launch's saved group (R372). -/
def State.spadHome (s : State) (c : CoreId) (launch : Option Nat) : Nat :=
  match s.savedGroup c launch with
  | some g => g.area + 0x200000
  | none => spadBase c
/-- A write into a saved scratchpad meets the windows of the stopped commands of the image, but for those of its own path (R251). -/
def SavedGroup.noteWrite (g : SavedGroup) (own : Option Eng) (a n : Nat) : SavedGroup :=
  { g with cmds := g.cmds.map fun q => if some q.eng = own then q else { q with dirty := (a, n) :: q.dirty } }
/-- Bytes written into the scratchpad of a saved group, in its image (R372); `own` is the engine whose path writes them. -/
def State.putSaved (s : State) (g : SavedGroup) (own : Option Eng) (a : Nat) (b : List Byte) : State :=
  (s.mapDie g.core.die fun d => { d with saved := d.saved.map fun h => if h.core = g.core ∧ h.area = g.area then h.noteWrite own a b.length else h }).otherWrite
    (g.area + 0x200000 + a) b
/-- Bytes delivered to a core's scratchpad (R372). -/
def State.deliver (s : State) (c : CoreId) (launch : Option Nat) (a : Nat) (b : List Byte) : State :=
  match s.savedGroup c launch with
  | some g => s.putSaved g none a b
  | none => s.spadWrite c a b
/-- A transfer reports to phases of barriers that are not over yet (R227, R315). -/
def toBars (bars : List Nat) : List (Nat × Bool) := bars.map fun a => (a, false)
/-- Data of a collective or a transpose delivered on the COLL path (R212, R372), with the barriers it arrives at and the scoreboard bit it sets. -/
def State.deliverColl (s : State) (c : CoreId) (launch : Option Nat) (bars : List Nat) (sb : Option (Nat × Nat)) (a : Nat) (b : List Byte) : State :=
  match s.savedGroup c launch with
  | some g => s.putSaved g (some .xpose) a b
  | none => s.spadWriteOn { path := .coll, ctx := 0, tells := ⟨toBars bars, sb, none⟩ } c a b

/-- One update reaches a barrier, and contexts waiting on it may go on (R306, R307, R372); a phase of a barrier in the scratchpad may end (R315).
Assumption 58. -/
def State.updateBarrier (s : State) (c : CoreId) (launch : Option Nat) (a : Nat) (k : UpdKind) (n : Nat) : State :=
  let b := Barrier.ofNat (Memory.read s.mem (s.spadHome c launch + a) 16)
  let t := s.deliver c launch a (leBytes 16 (b.update k n).toNat)
  (if (b.update k n).phase ≠ b.phase ∧ (s.savedGroup c launch).isNone then t.mapCore c fun y => y.endPhase a else t).wake c
/-- BARRIER_UPDATE: one of the updates on their way reaches its scratchpad (R307). -/
def execBarrierUpdate (k : Nat) (s : State) : Out :=
  match s.updates[k]? with
  | none => .next s
  | some u => .next ({ s with updates := s.updates.eraseIdx k }.updateBarrier u.core u.launch u.addr u.kind u.n)

end Sys2Proof.Machine
end

