-- ==== Sys2Proof/Machine/Barrier.lean ====
section
/-!
DEFINITION. Sys2Proof/Machine/Barrier.lean: the barrier instructions (R308 to R315), scoreboards and arms (R316 to R320), and `dbar` (R321 to R323).
-/
namespace Sys2Proof.Machine

/-- The launch of the issuing task. -/
def State.myLaunch (s : State) : Option Nat := s.my.launch

/-- The checks of a local form (R309). -/
def localCheck (a : Word) : Except Flt Unit := do
  require (decide (a.toNat % 16 = 0)) Code.memAlign a
  require (decide (a.toNat + 15 ≤ 0x1FFFFF)) Code.scratchRange a

/-- R310. -/
def execTbinit (g : Guard) (a : SReg) (b : Src) (s : State) : Out :=
  runSlot g s fun s => do
    let ad := s.opA a
    localCheck ad
    let n := (s.opB b).setWidth 16
    .ok (((s.touch [ad.toNat]).putBarrier s.issue.core ad.toNat ⟨0, n, n, 0, false, false, 0, 0⟩).wake s.issue.core)
/-- R311. -/
def execTbexpect (g : Guard) (a : SReg) (b : Src) (s : State) : Out :=
  runSlot g s fun s => do
    let ad := s.opA a
    localCheck ad
    .ok ((s.touch [ad.toNat]).updateBarrier s.issue.core none ad.toNat .expect ((s.opB b).toNat % 2 ^ 32))
/-- R312, the local form. -/
def execTbarrive (g : Guard) (a : SReg) (b : Src) (s : State) : Out :=
  runSlot g s fun s => do
    let ad := s.opA a
    localCheck ad
    let n := (s.opB b).toNat % 2 ^ 16
    .ok (if n = 0 then s else if s.unperformed .core then s.wait .fence else (s.touch [ad.toNat]).updateBarrier s.issue.core none ad.toNat .arrive n)
/-- The scope of an arrival (R312). -/
def arrivalScope (me c : CoreId) : Scope :=
  if me = c then .core else if me.cluster = c.cluster then .clu else if me.die = c.die then .die else .pkg
/-- R309, R312, the remote form. -/
def execTbarriveG (g : Guard) (a : SReg) (b : Src) (s : State) : Out :=
  runSlot g s fun s => do
    s.forbidGuarded
    let va := s.opA a
    require (decide (va.toNat < 2 ^ 55)) Code.vaRange va
    require (decide (va.toNat % 16 = 0)) Code.memAlign va
    let k ← s.slotTranslate va.toNat (s.useNo 32)
    let pa := s.localPa (k.paOf va.toNat)
    if h : k.cls = .onchip ∧ 0x010000000000 ≤ pa ∧ (pa - 0x010000000000) / 0x200000 < 512 then
      require (s.assigned pa) Code.paUnmapped (BitVec.ofNat 64 (k.paOf va.toNat))
      let c : CoreId := ⟨(pa - 0x010000000000) / 0x200000, h.2.2⟩
      let n := (s.opB b).toNat % 2 ^ 16
      .ok (if n = 0 then s
        else if s.unperformed (arrivalScope s.issue.core c) then s.wait .fence
        else { s with updates := s.updates ++ [⟨c, (pa - 0x010000000000) % 0x200000, .arrive, n, s.myLaunch⟩] })
    else .error ⟨Code.classRefused, va, 0⟩
/-- A completing wait on a barrier (R227, R234, R315): `%pts` rises, no older copy serves the core, and the barrier's own transfers come before the reads of
every path. -/
def State.waited (s : State) (a : Nat) : State :=
  ((s.raisePtsAll s.issue.core s.issue.ctx).dropStale s.issue.core false).mapMe fun k => k.orderBarrier a
/-- R313, R315. -/
def execTbwait (g : Guard) (a : SReg) (b : Src) (s : State) : Out :=
  runSlot g s fun s => do
    let ad := s.opA a
    localCheck ad
    let k := (s.opB b).setWidth 4
    .ok (if (s.barrier s.issue.core ad.toNat).phase = k then s.block (.tbwait ad.toNat k) else (s.touch [ad.toNat]).waited ad.toNat)
/-- R314, R315; a context may observe transfers so, those of the phases that are over (R227). -/
def execTbtest (g : Guard) (d a : SReg) (s : State) : Out :=
  runSlot g s fun s => do
    let ad := s.opA a
    localCheck ad
    let x := s.barrier s.issue.core ad.toNat
    .ok (((((s.touch [ad.toNat]).writeS d 2
      (BitVec.ofNat 64 (x.sect.toNat * 2 ^ 32 + x.arr.toNat * 2 ^ 16 + x.err.toNat * 512 + x.ovf.toNat * 256 + x.phase.toNat))).raisePtsAll
      s.issue.core s.issue.ctx).dropStale s.issue.core false).mapMe fun k => k.observe s.issue.ctx s.tick ad.toNat)

/-! ### Scoreboards (R316 to R320) -/

/-- The fields of a scoreboard descriptor (R317). -/
structure SbDesc where
  c : Bool
  index : Nat
  first : Nat
  count : Nat
deriving DecidableEq, Repr
def sbDesc (w : Nat) : SbDesc := ⟨bit w 40, bits w 32 4, bits w 0 12, bits w 16 12 + 1⟩
/-- The descriptor is one the issuing launch may use (R317). -/
def State.sbOk (s : State) (w : Nat) : Bool :=
  let d := sbDesc w
  bits w 12 4 == 0 && bits w 28 4 == 0 && bits w 36 4 == 0 && bits w 41 23 == 0 && decide (d.first + d.count ≤ 4096) &&
    (match s.launchOf s.issue.core s.issue.ctx with | some l => l.boards.contains d.index | none => false)

/-- A range of a scoreboard as a mask. -/
def rangeMask (first count : Nat) : BitVec 4096 := BitVec.ofNat 4096 ((2 ^ count - 1) * 2 ^ first)
def Die.board (d : Die) (j : Nat) : BitVec 4096 := d.boards.toList.getD j 0
def Die.setBoard (d : Die) (j : Nat) (v : BitVec 4096) : Die := { d with boards := d.boards.setIfInBounds j v }
def Arm.full (a : Arm) (d : Die) : Bool := d.board a.board &&& rangeMask a.first a.count == rangeMask a.first a.count

/-- An arm fires: it clears its range when it consumes, arrives at its barrier and is freed; it acts as an acquire, and makes the transfers whose bits it saw
observed (R319). -/
def State.fireArm (s : State) (dd : DieId) (a : Arm) : State :=
  let s := s.mapDie dd fun d =>
    let d := if a.consume then d.setBoard a.board (d.board a.board &&& ~~~rangeMask a.first a.count) else d
    { d with arms := d.arms.erase a }
  (((s.raisePtsAll a.core a.ctx).dropStale a.core false).mapCore a.core fun k => k.observeBits a.ctx s.tick a.board a.first a.count a.addr).updateBarrier a.core (s.ctx a.core a.ctx).launch a.addr .arrive 1
/-- One arm is tested (R319). A saved arm is tested only at its restore, and remembers that its bits were set (R320). -/
def State.testArm (s : State) (dd : DieId) (a : Arm) : State :=
  if !a.full (s.die dd) then s
  else if a.saved.isSome then s.mapDie dd fun d => { d with arms := d.arms.map fun b => if b = a then { b with seen := true } else b }
  else s.fireArm dd a
/-- The arms of a die over one scoreboard, oldest first (R319). -/
def State.testArms (s : State) (dd : DieId) (j : Nat) : State :=
  ((s.die dd).arms.filter fun a => a.board == j).foldl (fun t a => t.testArm dd a) s
/-- A range is set or cleared in one indivisible change (R318). -/
def State.setBoardRange (s : State) (dd : DieId) (j first count : Nat) (clear : Bool) : State :=
  (s.mapDie dd fun d => d.setBoard j (if clear then d.board j &&& ~~~rangeMask first count else d.board j ||| rangeMask first count)).testArms dd j

/-- R318: a release at die scope. -/
def execSbset (g : Guard) (b : Src) (s : State) : Out :=
  runSlot g s fun s => do
    let w := (s.opB b).toNat
    require (s.sbOk w) Code.sbParam 0
    let d := sbDesc w
    .ok (if s.unperformed .die then s.wait .fence else s.setBoardRange s.issue.core.die d.index d.first d.count d.c)
/-- R319. -/
def execSbarm (g : Guard) (a : SReg) (b : Src) (s : State) : Out :=
  runSlot g s fun s => do
    let w := (s.opB b).toNat
    require (s.sbOk w) Code.sbParam 0
    let ad := s.opA a
    localCheck ad
    require (decide (((s.die s.issue.core.die).arms.filter fun x => x.core == s.issue.core && x.saved.isNone).length < 64)) Code.sbArmsFull 0
    let d := sbDesc w
    let arm : Arm := ⟨s.issue.core, s.issue.ctx, ad.toNat, d.index, d.first, d.count, d.c, none, false⟩
    .ok ((s.mapDie s.issue.core.die fun x => { x with arms := x.arms ++ [arm] }).testArm s.issue.core.die arm)

/-! ### Domain barriers (R321 to R323) -/

/-- The phase bit of a level inverts (R322). -/
def State.flipPhase (s : State) (c : CoreId) (x : CtxId) (level : Nat) : State :=
  s.mapCtx c x fun k => { k with dmem := k.dmem ^^^ BitVec.ofNat 64 (2 ^ (56 + level)) }

/-- A task belongs to domains above its core group unless it is an exact task (R348, R351). -/
def State.inDomains (s : State) (c : CoreId) (y : Ctx) (level : Nat) : Bool :=
  level == 1 || (match (s.die c.die).launches.find? fun l => some l.id == y.launch with | some l => !l.isExact y | none => true)

/-- The mark of a member's arrival, or of all it has issued: a member that has retired is past everything (R322). -/
def State.arrivalMark (s : State) (k : DCounter) (c : CoreId) (x : CtxId) : Mark :=
  if (s.ctx c x).st = .retired then s.markOf c x else (k.marks.find? fun m => m.core == c && m.ctx == x && m.task == (s.ctx c x).task.toNat).getD (s.markOf c x)
/-- What a domain asks of a saved context: its launch, its group and the `%dmem` of its image (R25, R371). -/
def State.savedMember (s : State) (g : SavedGroup) (x : CtxId) : Ctx :=
  { Ctx.reset with launch := some g.launch, group := g.group, dmem := BitVec.ofNat 64 (Memory.read s.mem (g.ctxBase x + 0x2D8) 8) }
/-- A saved context belongs to a counter's domain. -/
def State.inSavedDomain (s : State) (k : DCounter) (g : SavedGroup) (x : CtxId) : Bool :=
  let y := s.savedMember g x
  g.launch == k.launch && s.inDomains g.core y k.level && domainIndex g.core y k.level == k.idx
/-- A saved member has a transfer to be delivered: a stopped command (R252) or channel elements on their way (R372), issued before its arrival, or any of them
when it had retired (R322). -/
def State.savedOpen (s : State) (d : DieId) (k : DCounter) (g : SavedGroup) (x : CtxId) : Bool :=
  let task := Memory.read s.mem (g.ctxBase x + 0x2D0) 3
  let m := if Memory.read s.mem (g.ctxBase x + 0x338) 1 % 4 = 2 then none else k.marks.find? fun m => m.core == g.core && m.ctx == x && m.task == task
  g.errs.any (fun e => e.1 == x && m.all fun m => m.cmds.contains e.2.1) ||
    (s.die d).launches.any fun l => l.id == g.launch && l.chans.any fun h => h.prod == task && h.openBefore m
/-- Some member of a counter's domain has a transfer that a communication phase must deliver (R26, R28, R322): a killed member's are not awaited, a saved
member's are. A launch-level phase also waits for the exact tasks that stand in for surrogates
(R351). -/
def State.domainOpen (s : State) (d : DieId) (k : DCounter) : Bool :=
  (k.level == 3 && (s.die d).launches.any fun l => l.id == k.launch && decide (l.exactFreed < l.exactSent)) ||
  ((List.finRange 512).any fun (c : CoreId) => decide (c.die = d) && ctxIds.any fun x =>
    let y := s.ctx c x
    y.st != .saved && y.launch == some k.launch && s.inDomains c y k.level && domainIndex c y k.level == k.idx && !((y.st == .retired || y.st == .free) && y.status == .killed) &&
      s.phaseOpen c x (s.arrivalMark k c x)) ||
  (s.die d).saved.any fun g => g.ctxs.any fun x => s.inSavedDomain k g x && s.savedOpen d k g x

/-- The members of a counter's domain that hold contexts. -/
def State.domainMembers (s : State) (d : DieId) (k : DCounter) : List (CoreId × CtxId) :=
  ((List.finRange 512).filter fun (c : CoreId) => decide (c.die = d)).flatMap fun c => (ctxIds.filter fun x =>
    let y := s.ctx c x
    y.st != .free && y.st != .retired && y.st != .saved && y.launch == some k.launch && s.inDomains c y k.level && domainIndex c y k.level == k.idx).map fun x => (c, x)

/-- A member receives what a communication phase delivers (R26, R29, R229): `%pts` is at least `top`, and no older copy serves its core. -/
def State.delivered (s : State) (c : CoreId) (x : CtxId) (top : Nat) : State := (s.raisePts c x top).dropStale c false
/-- A write that stands in a core's list is what a member of a counter's domain has done, whether it runs, is saved or has ended with `done`, or what a core
that holds a member has received (R26, R28, R229). -/
def State.isMembers (s : State) (k : DCounter) (c : CoreId) (r : Fresh) : Bool :=
  match r.owner with
  | some o =>
    let y : Ctx := { Ctx.reset with launch := some o.launch, group := o.group, task := BitVec.ofNat 24 o.task, dmem := o.dmem }
    o.launch == k.launch && s.inDomains c y k.level && domainIndex c y k.level == k.idx
  | none => r.path == .coll && ctxIds.any fun x =>
    let y := s.ctx c x
    y.st != .free && y.launch == some k.launch && s.inDomains c y k.level && domainIndex c y k.level == k.idx
/-- What the members of a counter's domain have done or received comes before the reads of every path (R229). -/
def State.orderDomain (s : State) (d : DieId) (k : DCounter) : State :=
  ((List.finRange 512).filter fun (c : CoreId) => decide (c.die = d) && !(s.core c).recent.isEmpty).foldl (fun t c => t.mapCore c fun y => y.orderAll (s.isMembers k c)) s
/-- The saved members of a counter's domain keep a value that their `%pts` is raised to when they are restored (R229, R323). -/
def Die.raiseSaved (d : Die) (s : State) (k : DCounter) (top : Nat) : Die :=
  { d with saved := d.saved.map fun g => { g with clocks := ((g.ctxs.filter (s.inSavedDomain k g)).map fun x => (x, top)) ++ g.clocks } }
/-- The largest `%pts` of any member, saved ones included, and at least the die's clock (R229). -/
def State.topPts (s : State) (d : DieId) (k : DCounter) : Nat :=
  let live := (s.domainMembers d k).foldl (fun m (c, x) => max m (s.ctx c x).pts.toNat) (s.die d).clock
  (s.die d).saved.foldl (fun m g => (g.ctxs.filter (s.inSavedDomain k g)).foldl (fun m x => max m (max (g.clockOf x) (Memory.read s.mem (g.ctxBase x + 0x300) 8))) m) live
/-- A counter completes (R322): the generation advances, the phase inverts, every blocked member becomes ready; the end of a communication phase delivers
(R229). -/
def State.completeCounter (s : State) (d : DieId) (k : DCounter) : State :=
  let ms := s.domainMembers d k
  let top := s.topPts d k
  let s := s.mapDie d fun x => x.putCounter { k with arrived := 0, gen := k.gen + 1, phase := !k.phase, drain := false, marks := [] }
  let s := if k.phase then (ms.foldl (fun t (c, x) => t.delivered c x top) (s.mapDie d fun x => x.raiseSaved s k top)).orderDomain d k else s
  s.wakeAll ((ms.map (·.1)).eraseDups)
/-- TryComplete (R322). -/
def State.tryComplete (s : State) (d : DieId) (k : DCounter) : State :=
  if k.arrived < k.live then s.mapDie d fun x => x.putCounter k
  else if k.phase && s.domainOpen d k then s.mapDie d fun x => x.putCounter { k with drain := true }
  else s.completeCounter d k
/-- DOMAIN_BARRIER_COMPLETE: a counter whose members have all arrived completes once their transfers have (R322). -/
def execDomainBarrierComplete (d : DieId) (l : Nat) (lev : Fin 8) (idx : Nat) (s : State) : Out :=
  match (s.die d).counters.find? fun k => k.launch == l && k.level == lev.val && k.idx == idx with
  | none => .next s
  | some k => .next (if k.drain then s.tryComplete d k else s)

/-- The level may be used by the issuer (R29, R322). -/
def State.levelDeclared (s : State) (level : Nat) : Bool :=
  if level < 2 then true
  else if level < 4 then (match s.launchOf s.issue.core s.issue.ctx with | some l => l.whole && !l.isExact s.my | none => false)
  else s.my.dmem.getLsbD (52 + (level - 4))

/-- The arrival of a `dbar` (R322). -/
def State.dbarArrive (s : State) (level : Fin 8) : State :=
  let k := s.counterOf s.issue.core s.issue.ctx level.val
  (s.mapMy fun c => { c with dbarPend := some ⟨level, k.gen⟩ }).tryComplete s.issue.core.die
    { k with arrived := k.arrived + 1, marks := s.markOf s.issue.core s.issue.ctx :: k.marks }
/-- The end of a `dbar`: it commits once its counter has completed, or blocks (R322). -/
def State.dbarFinish (s : State) (level : Fin 8) : State :=
  match s.my.dbarPend with
  | some p =>
    if (s.counterOf s.issue.core s.issue.ctx level.val).gen = p.gen then s.block .dbar
    else (s.mapMy fun c => { c with dbarPend := none }).flipPhase s.issue.core s.issue.ctx level.val
  | none => s
/-- An older pending record at another level is settled first (R30, R322): none while its counter has not completed. -/
def State.dbarSettle (s : State) (level : Fin 8) : Option State :=
  match s.my.dbarPend with
  | some p =>
    if p.level = level then some s
    else if (s.counterOf s.issue.core s.issue.ctx p.level.val).gen = p.gen then none
    else some ((s.mapMy fun c => { c with dbarPend := none }).flipPhase s.issue.core s.issue.ctx p.level.val)
  | none => some s
/-- R322. -/
def execDbar (g : Guard) (b : Src) (s : State) : Out :=
  runSlot g s fun s => do
    let level : Fin 8 := ⟨(s.opB b).toNat % 8, Nat.mod_lt _ (by decide)⟩
    require (s.levelDeclared level.val) Code.domainUndeclared 0
    if level = 0 then
      let c := s.issue.core
      let x := s.issue.ctx
      .ok (if !s.my.dmem.getLsbD 56 then s.flipPhase c x 0
        else if s.phaseOpen c x (s.markOf c x) then s.block .transfers
        else ((s.delivered c x (s.die c.die).clock).mapCore c fun y => y.orderAll fun r =>
          match r.owner with
          | some o => s.my.launch == some o.launch && s.my.task.toNat == o.task
          | none => r.path == .coll).flipPhase c x 0)
    else
      match s.dbarSettle level with
      | none => .ok (s.block .dbar)
      | some t => .ok ((if t.my.dbarPend.isNone then t.dbarArrive level else t).dbarFinish level)

/-- A member's retirement (R323): it leaves the live members of every domain it belonged to, and the arrived ones when it was killed while its own `dbar`
was pending there. `y` is the member as it stood. -/
def State.leaveDomains (s : State) (c : CoreId) (y : Ctx) (killed : Bool) : State :=
  [1, 2, 3, 4, 5, 6, 7].foldl (fun t lev =>
    match (t.die c.die).counters.find? fun k => some k.launch == y.launch && k.level == lev && t.inDomains c y lev && k.idx == domainIndex c y lev with
    | none => t
    | some k =>
      let pend := match y.dbarPend with | some p => p.level.val == lev && p.gen == k.gen && killed | none => false
      t.tryComplete c.die { k with live := k.live - 1, arrived := if pend then k.arrived - 1 else k.arrived }) s

end Sys2Proof.Machine
end

