-- ==== Sys2Proof/Machine/Channels.lean ====
section
/-!
DEFINITION. Sys2Proof/Machine/Channels.lean: channels (R261 to R265): sending, receiving, the snapshot, delivery and credits.
-/
namespace Sys2Proof.Machine

/-- The launch and the entry that a channel operand names (R262): CHAN_INVALID without one. -/
def State.channel (s : State) (v : Word) : Except Flt (Launch × Chan) :=
  match s.launchOf s.issue.core s.issue.ctx with
  | none => .error ⟨Code.chanInvalid, 0, 0⟩
  | some l =>
    match (if v.toNat ≤ 1023 then l.chan v.toNat else none) with
    | none => .error ⟨Code.chanInvalid, 0, 0⟩
    | some c => .ok (l, c)
/-- The launch's entry is replaced. -/
def State.putChan (s : State) (d : DieId) (l : Nat) (c : Chan) : State := s.mapLaunch d l fun x => x.putChan c

/-- R262. The data is read at issue; an element on its way waits in `transit`. -/
def execChsend (g : Guard) (x : ChSrc) (b : Src) (s : State) : Out :=
  let pops := match x with | .scalar _ => 0 | .vector v => srcPops v
  runPopSlot g pops s fun s => do
    s.forbidGuarded
    let (l, c) ← s.channel (s.opB b)
    require (decide (s.my.task.toNat = c.prod)) Code.chanRole 0
    require (c.vec == (match x with | .scalar _ => false | .vector _ => true)) Code.chanShape 0
    let v : VWord := match x with | .scalar r => (s.readS r 0).setWidth 2048 | .vector v => s.vsrc v 0 0 32
    .ok (if l.hasRetired c.cons then s
      else if c.free = 0 then s.block (.chanFull c.idx)
      else s.putChan s.issue.core.die l.id { c with sent := c.sent + 1, transit := c.transit ++ [v] })

/-- R263: the oldest element, by the bound of 6; an acquire of the element raises `%pts` (R234). -/
def execChrecv (g : Guard) (x : ChDst) (b : Src) (s : State) : Out :=
  runSlot g s fun s => do
    let (l, c) ← s.channel (s.opB b)
    require (decide (s.my.task.toNat = c.cons)) Code.chanRole 0
    require (c.vec == (match x with | .scalar _ => false | .vector _ => true)) Code.chanShape 0
    match c.fifo with
    | [] => .ok (s.block (.chanEmpty c.idx))
    | v :: rest =>
      let s := (s.putChan s.issue.core.die l.id { c with received := c.received + 1, fifo := rest }).raisePtsAll s.issue.core s.issue.ctx
      .ok (match x with
        | .scalar r => s.writeS r 6 (v.setWidth 64)
        | .vector r => s.writeV r 6 v)

/-- R264. -/
def execChtest (g : Guard) (d : SReg) (b : Src) (s : State) : Out :=
  runSlot g s fun s => do
    let (l, c) ← s.channel (s.opB b)
    .ok (s.writeS d 2 (BitVec.ofNat 64 ((l.hasRetired c.prod).toNat * 2 ^ 63 + (l.hasRetired c.cons).toNat * 2 ^ 62 + c.free * 2 ^ 32 + c.fifo.length)))

/-- The core where a task of a launch runs now. -/
def State.runsOn (s : State) (d : DieId) (launch task : Nat) : Option (CoreId × CtxId) :=
  ((List.finRange 512).filter fun (c : CoreId) => decide (c.die = d)).findSome? fun c =>
    (ctxIds.find? fun x => let k := s.ctx c x; k.st != .free && k.launch == some launch && k.task.toNat == task).map fun x => (c, x)
/-- A task that runs is looked for again: it may go on. -/
def State.wakeTask (s : State) (d : DieId) (launch task : Nat) : State :=
  match s.runsOn d launch task with
  | some (c, x) => s.wakeCtx c x
  | none => s

/-- A channel's consumer is saved: its elements wait at the producer (R372). -/
def State.consumerSaved (s : State) (d : DieId) (l : Launch) (c : Chan) : Bool :=
  (s.die d).saved.any fun g => g.launch == l.id && g.group == c.cons / max 1 l.n

/-- CHANNEL_DELIVERY: the oldest element on its way arrives in the consumer's FIFO, or is discarded with a retired consumer (R262, R265). -/
def execChannelDelivery (d : DieId) (l : Nat) (ch : BitVec 10) (s : State) : Out :=
  match (s.die d).launches.find? fun y => y.id == l with
  | none => .next s
  | some y =>
    match y.chan ch.toNat with
    | none => .next s
    | some c =>
      match c.transit with
      | [] => .next s
      | v :: rest =>
        if s.consumerSaved d y c then .next s
        else if y.hasRetired c.cons then .next ((s.putChan d l { c with transit := rest }).wakeTask d l c.prod)
        else .next ((s.putChan d l { c with transit := rest, fifo := c.fifo ++ [v] }).wakeTask d l c.cons)

/-- CHANNEL_CREDIT_RETURN: the producer learns how many elements have been received (R262). -/
def execChannelCreditReturn (d : DieId) (l : Nat) (ch : BitVec 10) (s : State) : Out :=
  match (s.die d).launches.find? fun y => y.id == l with
  | none => .next s
  | some y =>
    match y.chan ch.toNat with
    | none => .next s
    | some c => .next ((s.putChan d l { c with known := c.received }).wakeTask d l c.prod)

end Sys2Proof.Machine
end

