-- ==== Sys2Proof/Machine/Home.lean ====
section
/-!
DEFINITION. Sys2Proof/Machine/Home.lean: what takes place after a global access has left its core: the home banks (R191 to R195, R208 to R210, R216), the
peer windows (R304), replies and acknowledgements (R202), and the landing of results (R68, R69, R195).
-/
namespace Sys2Proof.Machine

/-! ### The near-bank ALU (R193) -/

/-- The new value of an atomic on `n` bytes: `m` the old value, `x` the operand, `cmp` the compare value (R208; `umax` is `sig.max`, R347). -/
def amoNew (op : AmoOp) (n m x cmp : Nat) : Nat :=
  let w := 8 * n
  match op with
  | .add => (m + x) % 2 ^ w
  | .min => if toSigned w m ≤ toSigned w x then m else x
  | .max => if toSigned w m ≤ toSigned w x then x else m
  | .and => m &&& x
  | .or => m ||| x
  | .xor => m ^^^ x
  | .swap => x
  | .cas => if m = cmp then x else m
  | .fadd => fpAdd (if n = 4 then fp32 else fp64) m x
  | .umax => max m x
/-- What an atomic returns: a 32-bit form's old value sign-extended, `amo.fadd.f32`'s zero-extended (R208). -/
def amoOld (op : AmoOp) (n m : Nat) : Word := extend (op != .fadd) n m

/-- The width of a near-bank form's elements, and its operation (R209). -/
def NbOp.width : NbOp → Nat
  | .addF64 | .addI64 | .scaleF64 => 8
  | _ => 4
def NbOp.apply : NbOp → Nat → Nat → Nat
  | .addF32, m, v => fpAdd fp32 m v
  | .addF64, m, v => fpAdd fp64 m v
  | .addI32, m, v => (m + v) % 2 ^ 32
  | .addI64, m, v => (m + v) % 2 ^ 64
  | .maxF32, m, v => fpMax fp32 m v
  | .minF32, m, v => fpMin fp32 m v
  | .scaleF32, m, v => fpMul fp32 m v
  | .scaleF64, m, v => fpMul fp64 m v
/-- The active elements of a near-bank operation change, one after another; one in a poisoned unit stays as it is, and the error is reported (R195, R209;
assumption 63). -/
def State.nbApply (s : State) (c : CoreId) (op : NbOp) (pa : Nat) (data : VWord) (mask : Word) : State :=
  (List.range (256 / op.width)).foldl (fun t l =>
    let p := pa + l * op.width
    if !mask.getLsbD l then t
    else if t.poison.any fun u => overlaps u 8 p op.width then { t with out := t.out ++ [.transferError c p] }
    else t.memWrite p (leBytes op.width (op.apply (Memory.read t.mem p op.width) (elem data (8 * op.width) l)))) s

/-! ### An access at its home -/

/-- An access with a given identity among a core's outstanding ones. -/
def Core.access (k : Core) (id : Nat) : Option Access := k.accesses.find? fun a => a.id == id
def Core.putAccess (k : Core) (a : Access) : Core := { k with accesses := k.accesses.map fun b => if b.id = a.id then a else b }
def Core.dropAccess (k : Core) (id : Nat) : Core := { k with accesses := k.accesses.filter fun b => b.id != id }

/-- Logical time at the home bank (R216): the clock of a context of the die, or a writer with no clock of its own. A load takes the lease that stands at
that moment: assumption 62. -/
def State.stampAccess (s : State) (c : CoreId) (a : Access) (line : Nat) : State :=
  let d := s.homeDie a.pa
  if !s.isLined a.pa then s
  else if a.dieHomed then
    let x := s.ctx c a.ctx
    let (p, y) := match a.kind with
      | .load _ => (s.die d).stampLoad line x.pts.toNat x.lease.toNat (a.policy == 0)
      | _ => (s.die d).stampStore line x.pts.toNat (a.policy == 0)
    (s.setDie d y).raisePts c a.ctx p
  else
    match a.kind with
    | .load _ => s
    | _ => s.mapDie d fun y => y.stampOther line (a.policy == 0) false
/-- The last `%pts` at which a context may be served from a copy that it first loads now (R218). -/
def Ctx.leaseEnd (x : Ctx) : Nat := x.pts.toNat + x.lease.toNat
/-- The core keeps a copy of a line it has loaded (R216), unless the page is uncached (R192) or a unit of the line is poisoned (R195). -/
def State.keepCopy (s : State) (c : CoreId) (a : Access) : State :=
  let line := lineOf a.pa
  if a.dieHomed && a.policy != 2 && !(s.poison.any fun u => overlaps u 8 (line * 128) 128) then
    let t := (s.die c.die).tag line
    s.mapCore c fun k => { k with
      copies := ⟨line, t.wts, t.rts, BitVec.ofNat 1024 (Memory.read s.mem (line * 128) 128), (Vector.replicate 4 none).set a.ctx.val (some (s.ctx c a.ctx).leaseEnd) a.ctx.isLt⟩ ::
        k.copies.filter fun y => y.line != line }
  else s

/-- A copy may serve a context: its lease covers the context's clock (R216), and the context's own lease from its first load of it has not run out (R218). -/
def LineCopy.serves (y : LineCopy) (x : CtxId) (pts : Nat) : Bool := decide (pts ≤ y.rts) && (y.limits[x].all fun l => decide (pts ≤ l))
/-- A plain load of a cached page is served from a copy (R192, R216, R218). -/
def State.serveCopy (s : State) (c : CoreId) (a : Access) : Option State :=
  match a.kind, (s.core c).copies.find? fun y => y.line == lineOf a.pa with
  | .load _, some y =>
    if a.dieHomed && !a.acq && a.policy != 2 && y.serves a.ctx (s.ctx c a.ctx).pts.toNat then
      let t := (s.mapCore c fun k => k.putAccess { a with performed := true, result := BitVec.ofNat 64 (bits y.data.toNat (8 * (a.pa % 128)) (8 * a.size)) }).raisePts c a.ctx y.wts
      let t := if bits y.data.toNat (8 * (a.pa % 128)) (8 * a.size) = Memory.read s.mem a.pa a.size then t.hear c a.ctx a.pa a.size else t
      let lim := y.limits[a.ctx].getD (t.ctx c a.ctx).leaseEnd
      some (t.mapCore c fun k => { k with copies := k.copies.map fun z => if z.line = y.line then { z with limits := z.limits.set a.ctx.val (some lim) a.ctx.isLt } else z })
    else none
  | _, _ => none

/-- An access writes memory of this package on its path: the engines of its core may read what stood there until they are ordered after it (R228). -/
def State.accessWrite (s : State) (c : CoreId) (a : Access) (v : Nat) : State :=
  ((s.noteOn { path := .core, ctx := a.ctx } c a.pa a.size).memWrite a.pa (leBytes a.size v)).raiseFlag c a.ctx a.pa a.size v a.points
/-- The value that a load finds at its home: an acquire finds every write performed there (R218), a plain load may find what stood there before a write of
another path of its core that nothing orders before it (R228), and both any value of the outputs of another core's transform (R179). -/
def State.loadNow (s : State) (c : CoreId) (a : Access) : Nat :=
  s.mixed c .core (meeting (s.farOutputs c a.ctx .core a.pa ++ if a.acq then [] else (s.core c).openFor c .core) a.pa a.size) a.pa a.size (s.memRead a.pa a.size)
/-- The releases that a load finds at its home (R221, R222): an acquire synchronises with them. -/
def State.loadHears (s : State) (c : CoreId) (a : Access) : State :=
  if a.acq then s.acquires c a.ctx (s.heardAt a.pa a.size a.scope (a.id + 1)) else s.hear c a.ctx a.pa a.size
/-- An access to memory of this package (R193, R195, R208, R209, R216). A poisoned word that a `sig` meets is reported, as it has no destination: assumption
63. -/
def State.performLocal (s : State) (c : CoreId) (a : Access) : State :=
  let s := s.stampAccess c a (lineOf a.pa)
  let bad := s.poison.any fun u => overlaps u 8 a.pa a.size
  let done (s : State) (r : Nat) : State := s.mapCore c fun k => k.putAccess { a with performed := true, poisoned := bad, result := BitVec.ofNat 64 r }
  match a.kind with
  | .load _ => done ((s.keepCopy c a).loadHears c a) (s.loadNow c a)
  | .store => done (s.accessWrite c a a.data.toNat) 0
  | .amo op =>
    let m := s.memRead a.pa a.size
    if bad then
      if (s.core c).inflight.any fun e => e.acc == some a.id then done s m else done { s with out := s.out ++ [.transferError c a.pa] } m
    else done (s.accessWrite c a (amoNew op a.size m (a.data.toNat % 2 ^ (8 * a.size)) a.cmp.toNat)) m
  | .nbop op =>
    (((s.stampAccess c a (lineOf a.pa + 1)).noteOn { path := .nb, ctx := a.ctx } c a.pa a.size).nbApply c op a.pa a.data a.mask).mapCore c fun k => k.dropAccess a.id

/-- An access reaches the peer window (R304): entry and port as they stand now. One that is not passed on gives all-ones bytes, or is dropped. -/
def State.performPeer (s : State) (c : CoreId) (a : Access) : State :=
  let e := s.peerEntry a.pa
  let bus := e.bus.toNat * 4096 + a.pa % 2 ^ 32
  if !s.peerOk a.pa then s.mapCore c fun k => k.putAccess { a with performed := true, cls := .onchip, result := BitVec.allOnes 64 }
  else
    let s := s.mapCore c fun k => k.putAccess { a with performed := true }
    { s with out := s.out ++ [match a.kind with | .load _ => .peerRead e.port bus a.size | _ => .peerWrite e.port bus (leBytes a.size a.data.toNat)] }
/-- An access leaves for another package (R380); what it does there is that package's. -/
def State.performRemote (s : State) (c : CoreId) (a : Access) : State :=
  let s := s.mapCore c fun k => k.putAccess { a with performed := true }
  s.send (match a.kind with
      | .store => .packet (bits a.pa 41 10) (a.pa % 2 ^ 41) none (leBytes a.size a.data.toNat)
      | .amo op => .remoteAmo (bits a.pa 41 10) (a.pa % 2 ^ 41) a.size op (a.data.setWidth 64) a.cmp
      | _ => .remote (bits a.pa 41 10) (a.pa % 2 ^ 41) a.size)

/-- HOME_BANK_ACCESS (R216): an access takes effect at its home, or from a lease copy; a superblock may be evicted first (R191). Assumption 57. -/
def execHomeBankAccess (c : CoreId) (k : Nat) (copy : Bool) (evict : Option Nat) (s : State) : Out :=
  let s := match evict with
    | some e => s.mapDie (s.homeDie (e * 512)) fun d => if s.isLined (e * 512) then d.evict (e * 512) else d
    | none => s
  match (s.core c).access k with
  | none => .next s
  | some a =>
    if a.performed || (s.core c).waitsFor s a then .next s
    else
      match (if copy then s.serveCopy c a else none) with
      | some t => .next t
      | none =>
        .next ((match regionClass a.pa with
          | some .peer => s.performPeer c a
          | some .remote => s.performRemote c a
          | _ => s.performLocal c a).wakeAt c a.pa)

/-! ### Replies (R202, R220, R380) -/

/-- The value that an access gives its destination: a load's bytes, with the buffered bytes of its task over them (R207), or an atomic's old value. -/
def Access.value (a : Access) (raw : Word) : Word :=
  match a.kind with
  | .load signed =>
    let b := (leBytes a.size raw.toNat).zipIdx.map fun (x, i) => if a.bufMask.getLsbD i then BitVec.ofNat 8 (a.bufData.toNat / 256 ^ i) else x
    extend signed a.size (leNat b)
  | .amo op => amoOld op a.size (raw.toNat % 2 ^ (8 * a.size))
  | _ => 0
/-- Bits `lo` to `lo + w - 1` of a vector replaced. -/
def putBits (v : VWord) (lo w x : Nat) : VWord := (v &&& ~~~ BitVec.ofNat 2048 ((2 ^ w - 1) * 2 ^ lo)) ||| BitVec.ofNat 2048 (x % 2 ^ w * 2 ^ lo)
/-- A place of a loaded value as the scratchpad gives it now (R198 to R201, R207). -/
def LoadPiece.value (p : LoadPiece) (s : State) (c : CoreId) : Nat :=
  let b := (leBytes p.n (s.spadReadOn .core c p.a p.n)).zipIdx.map fun (x, i) => if p.bufMask.getLsbD i then BitVec.ofNat 8 (p.bufData.toNat / 256 ^ i) else x
  if p.n ≤ 8 then (extend p.signed p.n (leNat b)).toNat else leNat b
/-- A scratchpad load of a bundle reads now that the acquires of the bundle have returned (R214); `a` is the last of them. -/
def InFlight.reread (e : InFlight) (s : State) (c : CoreId) (a : Access) : InFlight :=
  if e.ctx ≠ a.ctx ∨ e.src.isEmpty then e
  else
    { e with
      val := some (e.src.foldl (fun v p => putBits v p.bit p.width (p.value s c)) (e.val.getD 0))
      poison := e.src.findSome? fun p => (s.poison.find? fun u => overlaps u 8 (spadBase c + p.a) p.n).map fun u => (u, a.pc, a.next)
      src := [] }
/-- A scratchpad store of a context takes place (R67); after a fence it is a release (R221). -/
def State.putStaged (s : State) (c : CoreId) (x : CtxId) : Staging → State
  | .spad a n v => (s.spadWriteOn { path := .core, ctx := x } c a (leBytes n v.toNat)).raiseFlag c x (spadBase c + a) n v.toNat (s.ctx c x).sync.rels
  | .flag pa n points => s.raiseFlag c x pa n (Memory.read s.mem pa n) (points ++ (s.ctx c x).sync.rels)
  | _ => s
/-- The scratchpad stores of a context's bundle that have waited for its acquires take place (R214, R232). -/
def State.putHeld (s : State) (c : CoreId) (x : CtxId) : State :=
  (((s.core c).heldStores.filter fun p => p.1 == x).foldl (fun t p => t.putStaged c x p.2) s).mapCore c fun k => { k with heldStores := k.heldStores.filter fun p => p.1 != x }
/-- The last acquire of a bundle has returned: the bundle's loads of the core's scratchpad read it, then its stores take place there (R214, R222). -/
def State.afterAcquires (s : State) (c : CoreId) (a : Access) : State :=
  if (s.core c).accesses.any fun b => b.ctx == a.ctx && b.acq then s
  else
    let pieces := ((s.core c).inflight.filter fun e => e.ctx == a.ctx).flatMap (·.src)
    let t := pieces.foldl (fun t p => t.hear c a.ctx (spadBase c + p.a) p.n) (s.mapCore c fun k => { k with inflight := k.inflight.map fun e => e.reread s c a })
    (t.putHeld c a.ctx).wake c
/-- The reply reaches the core: the destination's value is known, and the access is over; after an acquire no copy serves the core that is older than what it
must make visible (R222). -/
def State.reply (s : State) (c : CoreId) (a : Access) (v : Word) : State :=
  let t := (if a.acq then s.dropStale c (!a.dieHomed) else s).mapCore c fun k =>
    { k.dropAccess a.id with
      inflight := k.inflight.map fun e =>
        if e.acc = some a.id then { e with val := some (v.setWidth 2048), acc := none, poison := if a.poisoned then some (a.pa, a.pc, a.next) else none } else e }
  if a.acq then t.afterAcquires c a else t
/-- GLOBAL_REPLY: the value of a load or an atomic returns (R202, R208). Only a peer or another package supplies `v` or an error: a peer's completion with an
error, or the poison of a word of another package (R195). -/
def execGlobalReply (c : CoreId) (k : Nat) (v : Word) (err : Bool) (s : State) : Out :=
  match (s.core c).access k with
  | none => .next s
  | some a =>
    match a.kind with
    | .store => .next s
    | .nbop _ => .next s
    | _ =>
      if !a.performed then .next s
      else
        match regionClass a.pa with
        | some .peer =>
          if a.cls == .onchip then .next (s.reply c a (a.value a.result))
          else if err then .next ((s.peerError a.pa).reply c a (a.value (BitVec.allOnes 64)))
          else .next (s.reply c a (a.value v))
        | some .remote => .next (s.reply c { a with poisoned := err } (a.value v))
        | _ => .next (s.reply c a (a.value a.result))
/-! ### Landing (R68, R69, R195) -/

/-- The kind and the number of a destination as a MEM_POISON record names it (R356). -/
def Dest.number : Dest → Nat
  | .s r => r.val
  | .v r => 256 + r.val
  | .p r => r.val
  | .sc r => r.val
  | .spec _ => 0
  | .nothing => 0
/-- An entry that has not landed, of an earlier issue to the same destination: it never will (R69). -/
def InFlight.superseded (e by_ : InFlight) : InFlight := if e.ctx = by_.ctx ∧ e.dest = by_.dest ∧ e.issued < by_.issued ∧ !e.landed then { e with dead := true } else e
/-- The in-flight result `k` lands, once no acquire of its bundle is awaited (R214); a poisoned one freezes the core with a MEM_POISON record, and its destination then takes any value (R195, R360). -/
def State.landAt (s : State) (c : CoreId) (k : Nat) : State :=
  match (s.core c).inflight[k]? with
  | none => s
  | some e =>
    if e.landed || !e.src.isEmpty then s
    else
      match e.val, e.poison with
      | none, _ => s
      | some _, some (pa, pc, next) =>
        if (s.core c).record.isSome then s
        else
          (s.mapCore c fun y => { y with
            inflight := y.inflight.set k { e with val := some (Config.freeBits 2048 s.tick (700000 + k)), poison := none } }).takeTrap
            ⟨0, c, e.ctx, 0, 1, BitVec.ofNat 8 Code.memPoison, next, pc, BitVec.ofNat 64 pa, BitVec.ofNat 64 e.dest.number⟩ []
      | some v, none =>
        s.mapCore c fun y =>
          let l := (y.inflight.map fun f => f.superseded e).set k { e with landed := true }
          if e.dead then { y with inflight := l } else { y.mapCtx e.ctx fun x => x.land e.dest v with inflight := l }
/-- RESULT_LANDING: an in-flight result lands, at the latest when its bound has elapsed (R68). -/
def execResultLanding (c : CoreId) (k : Nat) (s : State) : Out := .next (s.landAt c k)

end Sys2Proof.Machine
end

