-- ==== Sys2Proof/WellFormed.lean ====
section
/-!
DEFINITION. Sys2Proof/WellFormed.lean: the rules on operands that the types of Sys2Proof/Syntax.lean do not express. A slot word that breaks one is
refused by the decoder as ILLEGAL_OP (R64, R93, R117).
-/
namespace Sys2Proof

/-- An even register number (R117, R136, R386). -/
def evenReg {n : Nat} (r : Fin n) : Bool := r.val % 2 == 0

/-- The float columns of R116. -/
def VFmt.isFloat : VFmt → Bool
  | .f64 | .f32 | .f16 | .bf16 => true
  | _ => false

/-- `vred` ops 3 and 5 exist in the integer columns only (R135). -/
def RedOp.okFor (o : RedOp) (f : VFmt) : Bool :=
  match o with
  | .sumS | .scanS => !f.isFloat
  | _ => true

/-- The columns a packed format is packed from and unpacked into (R133, R134). -/
def PackFmt.okFor (t : PackFmt) (f : VFmt) : Bool :=
  match t with
  | .sx3 | .sx5 | .sx8 => f == .f32 || f == .f16 || f == .bf16
  | .q | .q2 | .q4 | .q8 => f == .i32 || f == .n32

/-- The narrow-integer matrix formats (R73, R144). -/
def MFmt.isNarrow : MFmt → Bool
  | .q2 | .q4 | .q8 | .q => true
  | _ => false

/-- The special registers `wrsp` may name (R86). -/
def SpecReg.writable : SpecReg → Bool
  | .fmtn | .tol | .rseed | .lease => true
  | _ => false

/-- A well-formed instruction: one that its slot word can name. -/
def Instr.wf : Instr → Bool
  | .wrsp _ x _ => x.writable
  | .loop _ off _ => off != 0
  | .xfence _ p q => p != 0 && q != 0
  | .vlrec _ _ _ a b => evenReg a && evenReg b
  | .vred _ _ _ f o => o.okFor f
  | .vpack _ _ _ f t => t.okFor f
  | .vunpack _ _ _ f t => t.okFor f
  | .vsincos _ _ d _ => evenReg d
  | .mma _ f _ _ _ sc _ => !sc || f.isNarrow
  | .mmaH _ f _ _ _ sc _ => !sc || f.isNarrow
  | .sdscan _ _ _ b _ => evenReg b
  | .sdgen _ _ a _ basis => basis || a == 0
  | .ewrBlk _ _ _ a _ => a != 0
  | .mcred _ _ a _ => evenReg a && a != 0
  | _ => true

end Sys2Proof
end

