-- ==== Sys2Proof/Decode.lean ====
section
/-!
DEFINITION. Sys2Proof/Decode.lean: slot words, crown words and front-end words to instructions, and back. Fields follow R56, R60, R61, R66 and R352;
opcodes follow R73. What a slot word cannot name is refused as ILLEGAL_OP (R62 to R64, R73).
-/
namespace Sys2Proof

/-- The eight slot kinds in mask order (R55), and the words of a Patante hart (R352). -/
inductive WordKind where
  | a | b | l | k | v | x | m | e | front
deriving DecidableEq, Repr

/-- Why a word is refused. -/
inductive Reject where
  /-- A slot word: ILLEGAL_OP (R62, R63, R64, R73). -/
  | illegalOp
  /-- A word that is not a legal crown (R56). -/
  | badCrown
  /-- A bundle that would extend past the last word of instruction memory (R56). -/
  | pastEnd
  /-- A front-end word that is none of the custom instructions of R352. -/
  | notCustom
deriving DecidableEq, Repr

/-! ### Forms -/

/-- An R-form slot word (R60). -/
structure RWord where
  op : Fin 128
  p : Fin 32
  n : Bool
  d : Fin 64
  a : Fin 64
  b : Fin 64
  l : Bool
deriving DecidableEq, Repr

/-- An M-form slot word (R61). -/
structure MWord where
  op : Fin 128
  p : Fin 32
  n : Bool
  acc : Fin 8
  a : Fin 64
  b : Fin 64
  l : Bool
  flags : Fin 8
deriving DecidableEq, Repr

/-- A front-end word (R352): RISC-V R-type fields. -/
structure FWord where
  f7 : Fin 128
  rs2 : Fin 32
  rs1 : Fin 32
  f3 : Fin 8
  rd : Fin 32
  opc : Fin 128
deriving DecidableEq, Repr

/-- Field of `m` values whose lowest bit has weight `k`. -/
def field (w k m : Nat) (h : 0 < m) : Fin m := ⟨w / k % m, Nat.mod_lt _ h⟩
def flag (w k : Nat) : Bool := w / k % 2 == 1

def RWord.ofNat (w : Nat) : RWord :=
  ⟨field w (2 ^ 25) 128 (by decide), field w (2 ^ 20) 32 (by decide), flag w (2 ^ 19), field w (2 ^ 13) 64 (by decide), field w (2 ^ 7) 64 (by decide),
    field w 2 64 (by decide), flag w 1⟩
def RWord.toNat (r : RWord) : Nat :=
  r.op.val * 2 ^ 25 + r.p.val * 2 ^ 20 + r.n.toNat * 2 ^ 19 + r.d.val * 2 ^ 13 + r.a.val * 2 ^ 7 + r.b.val * 2 + r.l.toNat
def MWord.ofNat (w : Nat) : MWord :=
  ⟨field w (2 ^ 25) 128 (by decide), field w (2 ^ 20) 32 (by decide), flag w (2 ^ 19), field w (2 ^ 16) 8 (by decide), field w (2 ^ 10) 64 (by decide),
    field w (2 ^ 4) 64 (by decide), flag w (2 ^ 3), field w 1 8 (by decide)⟩
def MWord.toNat (r : MWord) : Nat :=
  r.op.val * 2 ^ 25 + r.p.val * 2 ^ 20 + r.n.toNat * 2 ^ 19 + r.acc.val * 2 ^ 16 + r.a.val * 2 ^ 10 + r.b.val * 2 ^ 4 + r.l.toNat * 2 ^ 3 + r.flags.val
def FWord.ofNat (w : Nat) : FWord :=
  ⟨field w (2 ^ 25) 128 (by decide), field w (2 ^ 20) 32 (by decide), field w (2 ^ 15) 32 (by decide), field w (2 ^ 12) 8 (by decide),
    field w (2 ^ 7) 32 (by decide), field w 1 128 (by decide)⟩
def FWord.toNat (r : FWord) : Nat :=
  r.f7.val * 2 ^ 25 + r.rs2.val * 2 ^ 20 + r.rs1.val * 2 ^ 15 + r.f3.val * 2 ^ 12 + r.rd.val * 2 ^ 7 + r.opc.val

/-! ### Field values -/

/-- pred and neg (R63). -/
def guardOf (p : Fin 32) (n : Bool) : Option Guard :=
  if p.val = 0 then (if n then none else some .always)
  else if h : p.val - 1 < 24 then some (.on ⟨p.val - 1, h⟩ n) else none
def Guard.pred : Guard → Fin 32
  | .always => 0
  | .on k _ => ⟨k.val + 1, by omega⟩
def Guard.neg : Guard → Bool
  | .always => false
  | .on _ n => n

def shapeOf : Nat → Option Shape
  | 0 => some .i32
  | 1 => some .n32
  | 2 => some .w64
  | 3 => some .f32w
  | 4 => some .hi32
  | 5 => some .h16x4
  | 6 => some .b8x8
  | _ => none
def Shape.code : Shape → Fin 8
  | .i32 => 0
  | .n32 => 1
  | .w64 => 2
  | .f32w => 3
  | .hi32 => 4
  | .h16x4 => 5
  | .b8x8 => 6

/-- A brim reference (R66): index in the high three bits, shape in the low three. -/
def brimOf (b : Fin 64) : Option Brim := (shapeOf (b.val % 8)).map fun s => ⟨⟨b.val / 8, by omega⟩, s⟩
def Brim.code (b : Brim) : Fin 64 := ⟨b.idx.val * 8 + b.shape.code.val, by omega⟩

def srcOf (b : Fin 64) (l : Bool) : Option Src := if l then (brimOf b).map .lit else some (.reg b)
def Src.code : Src → Fin 64
  | .reg r => r
  | .lit b => b.code
def Src.bl : Src → Bool
  | .reg _ => false
  | .lit _ => true

def predOf (f : Fin 64) : Option PReg := if h : f.val < 24 then some ⟨f.val, h⟩ else none
def PReg.code (r : PReg) : Fin 64 := ⟨r.val, by omega⟩
def psrcOf (b : Fin 64) (l : Bool) : Option PSrc := if l then (brimOf b).map .lit else (predOf b).map .reg
def PSrc.code : PSrc → Fin 64
  | .reg r => PReg.code r
  | .lit b => b.code
def PSrc.bl : PSrc → Bool
  | .reg _ => false
  | .lit _ => true

def vnumOf (f : Fin 64) : Option VNum := if h : f.val < 32 then some ⟨f.val, h⟩ else none
def VNum.code (r : VNum) : Fin 64 := ⟨r.val, by omega⟩
def vsrcOf (f : Fin 64) : Option VSrc :=
  if h : f.val < 32 then some (.reg ⟨f.val, h⟩)
  else if f.val = 32 then some .rnd else if f.val = 33 then some .zero else if f.val = 34 then some .lane else none
def VSrc.code : VSrc → Fin 64
  | .reg r => VNum.code r
  | .rnd => 32
  | .zero => 33
  | .lane => 34
def vopOf (b : Fin 64) (l : Bool) : Option VOp := if l then (brimOf b).map .lit else (vsrcOf b).map .src
def VOp.code : VOp → Fin 64
  | .src v => v.code
  | .lit b => b.code
def VOp.bl : VOp → Bool
  | .src _ => false
  | .lit _ => true

def scaleOf (f : Fin 64) : Option (Fin 8) := if h : f.val < 8 then some ⟨f.val, h⟩ else none
def scaleCode (r : Fin 8) : Fin 64 := ⟨r.val, by omega⟩
def oddCode (odd : Bool) : Fin 64 := if odd then 1 else 0

def specOf : Nat → Option SpecReg
  | 0 => some .ctx
  | 1 => some .core
  | 2 => some .task
  | 3 => some .dmem
  | 4 => some .fmtn
  | 5 => some .tol
  | 6 => some .rseed
  | 7 => some .rpos
  | 8 => some .pts
  | 9 => some .lease
  | _ => none
def SpecReg.code : SpecReg → Fin 64
  | .ctx => 0
  | .core => 1
  | .task => 2
  | .dmem => 3
  | .fmtn => 4
  | .tol => 5
  | .rseed => 6
  | .rpos => 7
  | .pts => 8
  | .lease => 9

def scopeOf : Nat → Option Scope
  | 0 => some .ctx
  | 1 => some .core
  | 2 => some .clu
  | 3 => some .die
  | 4 => some .pkg
  | 5 => some .grp
  | _ => none
def Scope.code : Scope → Fin 64
  | .ctx => 0
  | .core => 1
  | .clu => 2
  | .die => 3
  | .pkg => 4
  | .grp => 5

def vfmtOf : Nat → Option VFmt
  | 0 => some .f64
  | 1 => some .f32
  | 2 => some .f16
  | 3 => some .bf16
  | 4 => some .i32
  | 5 => some .n32
  | 6 => some .i64
  | 7 => some .n64
  | _ => none
def VFmt.code : VFmt → Fin 8
  | .f64 => 0
  | .f32 => 1
  | .f16 => 2
  | .bf16 => 3
  | .i32 => 4
  | .n32 => 5
  | .i64 => 6
  | .n64 => 7
def ffmtOf : Nat → Option FFmt
  | 0 => some .f64
  | 1 => some .f32
  | 2 => some .f16
  | 3 => some .bf16
  | _ => none
def FFmt.code : FFmt → Fin 4
  | .f64 => 0
  | .f32 => 1
  | .f16 => 2
  | .bf16 => 3
def ifmtOf : Nat → Option IFmt
  | 0 => some .i32
  | 1 => some .n32
  | 2 => some .i64
  | 3 => some .n64
  | _ => none
def IFmt.code : IFmt → Fin 4
  | .i32 => 0
  | .n32 => 1
  | .i64 => 2
  | .n64 => 3
def rmodeOf : Nat → Option RMode
  | 0 => some .rn
  | 1 => some .rz
  | 2 => some .ru
  | 3 => some .rd
  | _ => none
def RMode.code : RMode → Fin 4
  | .rn => 0
  | .rz => 1
  | .ru => 2
  | .rd => 3
def redOpOf : Nat → Option RedOp
  | 0 => some .sum
  | 1 => some .min
  | 2 => some .max
  | 3 => some .sumS
  | 4 => some .scan
  | 5 => some .scanS
  | 6 => some .sumsq
  | _ => none
def RedOp.code : RedOp → Fin 8
  | .sum => 0
  | .min => 1
  | .max => 2
  | .sumS => 3
  | .scan => 4
  | .scanS => 5
  | .sumsq => 6
def packOf : Nat → Option PackFmt
  | 0 => some .sx3
  | 1 => some .sx5
  | 2 => some .sx8
  | 3 => some .q
  | 4 => some .q2
  | 5 => some .q4
  | 6 => some .q8
  | _ => none
def PackFmt.code : PackFmt → Fin 8
  | .sx3 => 0
  | .sx5 => 1
  | .sx8 => 2
  | .q => 3
  | .q2 => 4
  | .q4 => 5
  | .q8 => 6
def mfmtOf : Nat → Option MFmt
  | 0 => some .sx3
  | 1 => some .sx5
  | 2 => some .sx8
  | 3 => some .bf16
  | 4 => some .f16
  | 5 => some .f32
  | 6 => some .f64
  | 7 => some .q2
  | 8 => some .q4
  | 9 => some .q8
  | 10 => some .q
  | _ => none
def MFmt.code : MFmt → Fin 16
  | .sx3 => 0
  | .sx5 => 1
  | .sx8 => 2
  | .bf16 => 3
  | .f16 => 4
  | .f32 => 5
  | .f64 => 6
  | .q2 => 7
  | .q4 => 8
  | .q8 => 9
  | .q => 10
def mvOf : Nat → Option MvFmt
  | 0 => some .raw
  | 1 => some .bf16
  | 2 => some .f16
  | 3 => some .sx8
  | 4 => some .sx5
  | 5 => some .sx3
  | 6 => some .f32w
  | 7 => some .i8
  | _ => none
def MvFmt.code : MvFmt → Fin 8
  | .raw => 0
  | .bf16 => 1
  | .f16 => 2
  | .sx8 => 3
  | .sx5 => 4
  | .sx3 => 5
  | .f32w => 6
  | .i8 => 7
def engOf : Nat → Option Eng
  | 0 => some .copy
  | 1 => some .xft
  | 2 => some .xpose
  | _ => none
def Eng.code : Eng → Fin 4
  | .copy => 0
  | .xft => 1
  | .xpose => 2
/-- The engine selector of R237: engine in bits 5:4, word in bits 3:0. -/
def selCode (e : Eng) (w : Fin 16) : Fin 64 := ⟨e.code.val * 16 + w.val, by omega⟩
def selWord (f : Fin 64) : Fin 16 := ⟨f.val % 16, by omega⟩
/-- The coded b field of `vcvt`, `vred`, `vpack` and `vunpack` (R132 to R135): a column in bits 6:4 of the word and a code in bits 3:1. -/
def colCode (f : VFmt) (c : Fin 8) : Fin 64 := ⟨f.code.val * 8 + c.val, by omega⟩

/-- The 18-bit value in the d, a and b fields (R108, R115). -/
def RWord.wide (r : RWord) : BitVec 18 := BitVec.ofNat 18 (r.d.val * 4096 + r.a.val * 64 + r.b.val)
/-- The 12-bit immediate in the a and b fields (R101). -/
def RWord.imm12 (r : RWord) : BitVec 12 := BitVec.ofNat 12 (r.a.val * 64 + r.b.val)
/-- The 12-bit offset in the d and b fields (R109). -/
def RWord.off12 (r : RWord) : BitVec 12 := BitVec.ofNat 12 (r.d.val * 64 + r.b.val)
/-- The 12-bit offset in the d and a fields (R111). -/
def RWord.loopOff (r : RWord) : BitVec 12 := BitVec.ofNat 12 (r.d.val * 64 + r.a.val)
def part (n k : Nat) : Fin 64 := ⟨n / k % 64, Nat.mod_lt _ (by decide)⟩

/-! ### Field classes (R93, R117, R196 and the tables of the E-slot chapters) -/

namespace RWord

def guard (r : RWord) : Option Guard := guardOf r.p r.n
def src (r : RWord) : Option Src := srcOf r.b r.l
def zero (c : Bool) : Option Unit := if c then some () else none

def binary (r : RWord) (f : Guard → SReg → SReg → Src → Instr) : Option Instr := do
  let g ← r.guard; let b ← r.src; some (f g r.d r.a b)
def unary (r : RWord) (f : Guard → SReg → Src → Instr) : Option Instr := do
  let g ← r.guard; let b ← r.src; zero (r.a == 0); some (f g r.d b)
def compare (r : RWord) (f : Guard → PReg → SReg → Src → Instr) : Option Instr := do
  let g ← r.guard; let d ← predOf r.d; let b ← r.src; some (f g d r.a b)
def plogic (r : RWord) (f : Guard → PReg → PReg → PSrc → Instr) : Option Instr := do
  let g ← r.guard; let d ← predOf r.d; let a ← predOf r.a; let b ← psrcOf r.b r.l; some (f g d a b)
/-- Two scalars read, d = 0. -/
def pair (r : RWord) (f : Guard → SReg → Src → Instr) : Option Instr := do
  let g ← r.guard; let b ← r.src; zero (r.d == 0); some (f g r.a b)
/-- OperandB alone. -/
def operand (r : RWord) (f : Guard → Src → Instr) : Option Instr := do
  let g ← r.guard; let b ← r.src; zero (r.d == 0 && r.a == 0); some (f g b)
/-- pred and neg alone. -/
def bare (r : RWord) (f : Guard → Instr) : Option Instr := do
  let g ← r.guard; zero (r.d == 0 && r.a == 0 && r.b == 0 && !r.l); some (f g)
def wideForm (r : RWord) (f : Guard → BitVec 18 → Instr) : Option Instr := do
  let g ← r.guard; zero (!r.l); some (f g r.wide)
def branchOff (r : RWord) (f : Guard → SReg → BitVec 12 → Instr) : Option Instr := do
  let g ← r.guard; some (f g r.a r.off12)
def branchAbs (r : RWord) (f : Guard → SReg → Brim → Instr) : Option Instr := do
  let g ← r.guard; let b ← brimOf r.b; zero (r.d == 0); some (f g r.a b)
def strided (r : RWord) (f : Guard → VNum → SReg → Src → Instr) : Option Instr := do
  let g ← r.guard; let d ← vnumOf r.d; let b ← r.src; some (f g d r.a b)
def indexed (r : RWord) (f : Guard → VNum → SReg → VSrc → Instr) : Option Instr := do
  let g ← r.guard; let d ← vnumOf r.d; let b ← vsrcOf r.b; zero (!r.l); some (f g d r.a b)
def ordered (r : RWord) (f : Guard → SReg → SReg → Scope → Instr) : Option Instr := do
  let g ← r.guard; let s ← scopeOf r.b.val; zero (!r.l); some (f g r.d r.a s)
def indexedByte (r : RWord) (f : Guard → Fin 8 → SReg → Src → Instr) : Option Instr := do
  let g ← r.guard; let d ← scaleOf r.d; let b ← r.src; some (f g d r.a b)
def lanewise (r : RWord) (f : Guard → VNum → VSrc → VOp → Instr) : Option Instr := do
  let g ← r.guard; let d ← vnumOf r.d; let a ← vsrcOf r.a; let b ← vopOf r.b r.l; some (f g d a b)
def vcompare (r : RWord) (f : Guard → PReg → VSrc → VOp → Instr) : Option Instr := do
  let g ← r.guard; let d ← predOf r.d; let a ← vsrcOf r.a; let b ← vopOf r.b r.l; some (f g d a b)
def coded (r : RWord) (f : Guard → VNum → VSrc → Fin 8 → Fin 8 → Option Instr) : Option Instr := do
  let g ← r.guard; let d ← vnumOf r.d; let a ← vsrcOf r.a; zero (!r.l)
  f g d a ⟨r.b.val / 8, by omega⟩ ⟨r.b.val % 8, by omega⟩
def special (r : RWord) (f : Guard → VNum → VSrc → Instr) : Option Instr := do
  let g ← r.guard; let d ← vnumOf r.d; let a ← vsrcOf r.a; zero (r.b == 0 && !r.l); some (f g d a)

end RWord

namespace MWord

def guard (r : MWord) : Option Guard := guardOf r.p r.n
def src (r : MWord) : Option Src := srcOf r.b r.l

end MWord

/-- An instruction that the field classes admit and Sys2Proof/WellFormed.lean accepts. -/
def Instr.checked (i : Instr) : Option Instr := if i.wf then some i else none

/-! ### Decoding by slot kind (R73) -/

/-- A and B slots, codes 0x00 to 0x53. -/
def decodeScalar (r : RWord) : Option Instr :=
  match r.op.val with
  | 0x00 => r.binary .add
  | 0x01 => r.binary .sub
  | 0x02 => r.binary .mul
  | 0x03 => r.binary .mulh
  | 0x04 => r.binary .mulhN
  | 0x05 => r.binary .div
  | 0x06 => r.binary .divN
  | 0x07 => r.binary .rem
  | 0x08 => r.binary .remN
  | 0x09 => r.binary .and
  | 0x0a => r.binary .or
  | 0x0b => r.binary .xor
  | 0x0c => r.binary .andn
  | 0x0d => r.binary .shl
  | 0x0e => r.binary .shr
  | 0x0f => r.binary .sra
  | 0x10 => r.binary .rol
  | 0x11 => r.binary .ror
  | 0x12 => r.unary .clz
  | 0x13 => r.unary .ctz
  | 0x14 => r.unary .popc
  | 0x15 => r.binary .min
  | 0x16 => r.binary .max
  | 0x17 => r.binary .minN
  | 0x18 => r.binary .maxN
  | 0x19 => r.unary .sext8
  | 0x1a => r.unary .sext16
  | 0x1b => r.unary .sext32
  | 0x1c => r.unary .zext8
  | 0x1d => r.unary .zext16
  | 0x1e => r.unary .zext32
  | 0x1f => r.binary .bfx
  | 0x20 => r.binary .bfxN
  | 0x21 => r.binary .bfi
  | 0x22 => r.binary .sel
  | 0x23 => r.binary .lea1
  | 0x24 => r.binary .lea2
  | 0x25 => r.binary .lea4
  | 0x26 => r.binary .lea8
  | 0x27 => r.binary .addS
  | 0x28 => r.binary .subS
  | 0x29 => r.binary .addSN
  | 0x2a => r.binary .subSN
  | 0x40 => r.compare .cmpEq
  | 0x41 => r.compare .cmpNe
  | 0x42 => r.compare .cmpLt
  | 0x43 => r.compare .cmpLe
  | 0x44 => r.compare .cmpLtN
  | 0x45 => r.compare .cmpLeN
  | 0x46 => r.plogic .pand
  | 0x47 => r.plogic .por
  | 0x48 => r.plogic .pxor
  | 0x49 => r.plogic .pandn
  | 0x4a => do let g ← r.guard; let d ← predOf r.d; let b ← r.src; RWord.zero (r.a == 0); some (.pfrom g d b)
  | 0x4b => do let g ← r.guard; let a ← predOf r.a; RWord.zero (r.b == 0 && !r.l); some (.pto g r.d a)
  | 0x50 => r.unary .mov
  | 0x51 => if r.l then do let g ← r.guard; let b ← brimOf r.b; RWord.zero (r.a == 0); some (.liBrim g r.d b)
    else do let g ← r.guard; some (.liImm g r.d r.imm12)
  | 0x52 => do let g ← r.guard; let x ← specOf r.a.val; RWord.zero (r.b == 0 && !r.l); some (.rdsp g r.d x)
  | 0x53 => do let g ← r.guard; let x ← specOf r.d.val; let b ← r.src; RWord.zero (r.a == 0); (Instr.wrsp g x b).checked
  | _ => none

/-- B slot, codes 0x60 to 0x6A. -/
def decodeControl (r : RWord) : Option Instr :=
  match r.op.val with
  | 0x60 => r.wideForm .br
  | 0x61 => if r.l then r.branchAbs .brcNzAbs else r.branchOff .brcNzOffset
  | 0x62 => if r.l then r.branchAbs .brcZAbs else r.branchOff .brcZOffset
  | 0x63 => do let g ← r.guard; RWord.zero (r.d == 0 && r.b == 0 && !r.l); some (.jr g r.a)
  | 0x64 => r.wideForm .call
  | 0x65 => r.bare .ret
  | 0x66 => if r.loopOff = 0 then r.bare .loopClear
    else do let g ← r.guard; let b ← r.src; some (.loop g r.loopOff b)
  | 0x67 => r.bare .done
  | 0x68 => r.bare .trig
  | 0x69 => r.wideForm .trap
  | 0x6a => r.wideForm .sys
  | _ => none

/-- L and K slots. -/
def decodeMem (r : RWord) : Option Instr :=
  match r.op.val with
  | 0x00 => r.binary .ldI8
  | 0x01 => r.binary .ldN8
  | 0x02 => r.binary .ldI16
  | 0x03 => r.binary .ldN16
  | 0x04 => r.binary .ldI32
  | 0x05 => r.binary .ldN32
  | 0x06 => r.binary .ld64
  | 0x07 => r.binary .st8
  | 0x08 => r.binary .st16
  | 0x09 => r.binary .st32
  | 0x0a => r.binary .st64
  | 0x0b => r.strided .ldv
  | 0x0c => r.strided .stv
  | 0x0d => r.indexed .ldg
  | 0x0e => r.indexed .stg
  | 0x0f => r.indexedByte .scld
  | 0x20 => r.binary .ldxI8
  | 0x21 => r.binary .ldxN8
  | 0x22 => r.binary .ldxI16
  | 0x23 => r.binary .ldxN16
  | 0x24 => r.binary .ldxI32
  | 0x25 => r.binary .ldxN32
  | 0x26 => r.binary .ldx64
  | 0x27 => r.binary .stx8
  | 0x28 => r.binary .stx16
  | 0x29 => r.binary .stx32
  | 0x2a => r.binary .stx64
  | 0x2b => r.ordered .ldxAcq32
  | 0x2c => r.ordered .ldxAcq64
  | 0x2d => r.ordered .stxRel32
  | 0x2e => r.ordered .stxRel64
  | 0x2f => r.binary .amoAdd32
  | 0x30 => r.binary .amoAdd64
  | 0x31 => r.binary .amoMin32
  | 0x32 => r.binary .amoMin64
  | 0x33 => r.binary .amoMax32
  | 0x34 => r.binary .amoMax64
  | 0x35 => r.binary .amoAnd64
  | 0x36 => r.binary .amoOr64
  | 0x37 => r.binary .amoXor64
  | 0x38 => r.binary .amoSwap32
  | 0x39 => r.binary .amoSwap64
  | 0x3a => r.binary .amoCas64
  | 0x3b => r.binary .amoFaddF32
  | 0x3c => r.binary .amoFaddF64
  | 0x40 => r.strided .nbopAddF32
  | 0x41 => r.strided .nbopAddF64
  | 0x42 => r.strided .nbopAddI32
  | 0x43 => r.strided .nbopAddI64
  | 0x44 => r.strided .nbopMaxF32
  | 0x45 => r.strided .nbopMinF32
  | 0x46 => r.strided .nbopScaleF32
  | 0x47 => r.strided .nbopScaleF64
  | 0x48 => do let g ← r.guard; let s ← scopeOf r.a.val; RWord.zero (r.d == 0 && r.b == 0 && !r.l); some (.fence g s)
  | 0x49 => do let g ← r.guard; RWord.zero (r.b == 0 && !r.l); (Instr.xfence g (BitVec.ofNat 6 r.d.val) (BitVec.ofNat 6 r.a.val)).checked
  | 0x4a => r.bare .fenceIo
  | _ => none

/-- V and X slots, codes 0x00 to 0x5F. -/
def decodeVec (r : RWord) : Option Instr :=
  match r.op.val with
  | 0x00 => r.lanewise fun g => .vadd g .f64
  | 0x01 => r.lanewise fun g => .vadd g .f32
  | 0x02 => r.lanewise fun g => .vadd g .f16
  | 0x03 => r.lanewise fun g => .vadd g .bf16
  | 0x04 => r.lanewise fun g => .vadd g .i32
  | 0x05 => r.lanewise fun g => .vadd g .n32
  | 0x06 => r.lanewise fun g => .vadd g .i64
  | 0x07 => r.lanewise fun g => .vadd g .n64
  | 0x08 => r.lanewise fun g => .vsub g .f64
  | 0x09 => r.lanewise fun g => .vsub g .f32
  | 0x0a => r.lanewise fun g => .vsub g .f16
  | 0x0b => r.lanewise fun g => .vsub g .bf16
  | 0x0c => r.lanewise fun g => .vsub g .i32
  | 0x0d => r.lanewise fun g => .vsub g .n32
  | 0x0e => r.lanewise fun g => .vsub g .i64
  | 0x0f => r.lanewise fun g => .vsub g .n64
  | 0x10 => r.lanewise fun g => .vmul g .f64
  | 0x11 => r.lanewise fun g => .vmul g .f32
  | 0x12 => r.lanewise fun g => .vmul g .f16
  | 0x13 => r.lanewise fun g => .vmul g .bf16
  | 0x14 => r.lanewise fun g => .vmul g .i32
  | 0x15 => r.lanewise fun g => .vmul g .n32
  | 0x16 => r.lanewise fun g => .vmul g .i64
  | 0x17 => r.lanewise fun g => .vmul g .n64
  | 0x18 => r.lanewise fun g => .vfma g .f64
  | 0x19 => r.lanewise fun g => .vfma g .f32
  | 0x1a => r.lanewise fun g => .vfma g .f16
  | 0x1b => r.lanewise fun g => .vfma g .bf16
  | 0x1c => do let g ← r.guard; let d ← vnumOf r.d; let a ← vsrcOf r.a; let b ← vsrcOf r.b; RWord.zero (!r.l); some (.vcmulC64 g d a b)
  | 0x1d => r.lanewise .vcmulC32
  | 0x1e => do let g ← r.guard; let d ← vnumOf r.d; let a ← vnumOf r.a; let b ← vnumOf r.b; RWord.zero (!r.l); (Instr.vlrec g false d a b).checked
  | 0x1f => do let g ← r.guard; let d ← vnumOf r.d; let a ← vnumOf r.a; let b ← vnumOf r.b; RWord.zero (!r.l); (Instr.vlrec g true d a b).checked
  | 0x20 => r.lanewise fun g => .vmin g .f64
  | 0x21 => r.lanewise fun g => .vmin g .f32
  | 0x22 => r.lanewise fun g => .vmin g .f16
  | 0x23 => r.lanewise fun g => .vmin g .bf16
  | 0x24 => r.lanewise fun g => .vmin g .i32
  | 0x25 => r.lanewise fun g => .vmin g .n32
  | 0x26 => r.lanewise fun g => .vmin g .i64
  | 0x27 => r.lanewise fun g => .vmin g .n64
  | 0x28 => r.lanewise fun g => .vmax g .f64
  | 0x29 => r.lanewise fun g => .vmax g .f32
  | 0x2a => r.lanewise fun g => .vmax g .f16
  | 0x2b => r.lanewise fun g => .vmax g .bf16
  | 0x2c => r.lanewise fun g => .vmax g .i32
  | 0x2d => r.lanewise fun g => .vmax g .n32
  | 0x2e => r.lanewise fun g => .vmax g .i64
  | 0x2f => r.lanewise fun g => .vmax g .n64
  | 0x30 => r.lanewise fun g => .vaddS g .i32
  | 0x31 => r.lanewise fun g => .vaddS g .n32
  | 0x32 => r.lanewise fun g => .vaddS g .i64
  | 0x33 => r.lanewise fun g => .vaddS g .n64
  | 0x34 => r.lanewise fun g => .vsubS g .i32
  | 0x35 => r.lanewise fun g => .vsubS g .n32
  | 0x36 => r.lanewise fun g => .vsubS g .i64
  | 0x37 => r.lanewise fun g => .vsubS g .n64
  | 0x38 => r.vcompare fun g => .vcmpEq g .f64
  | 0x39 => r.vcompare fun g => .vcmpEq g .f32
  | 0x3a => r.vcompare fun g => .vcmpEq g .f16
  | 0x3b => r.vcompare fun g => .vcmpEq g .bf16
  | 0x3c => r.vcompare fun g => .vcmpEq g .i32
  | 0x3d => r.vcompare fun g => .vcmpEq g .n32
  | 0x3e => r.vcompare fun g => .vcmpEq g .i64
  | 0x3f => r.vcompare fun g => .vcmpEq g .n64
  | 0x40 => r.vcompare fun g => .vcmpLt g .f64
  | 0x41 => r.vcompare fun g => .vcmpLt g .f32
  | 0x42 => r.vcompare fun g => .vcmpLt g .f16
  | 0x43 => r.vcompare fun g => .vcmpLt g .bf16
  | 0x44 => r.vcompare fun g => .vcmpLt g .i32
  | 0x45 => r.vcompare fun g => .vcmpLt g .n32
  | 0x46 => r.vcompare fun g => .vcmpLt g .i64
  | 0x47 => r.vcompare fun g => .vcmpLt g .n64
  | 0x48 => r.vcompare fun g => .vcmpLe g .f64
  | 0x49 => r.vcompare fun g => .vcmpLe g .f32
  | 0x4a => r.vcompare fun g => .vcmpLe g .f16
  | 0x4b => r.vcompare fun g => .vcmpLe g .bf16
  | 0x4c => r.coded fun g d a x y => do let s ← vfmtOf x.val; let t ← vfmtOf y.val; some (.vcvt g .rn d a s t)
  | 0x4d => r.coded fun g d a x y => do let s ← vfmtOf x.val; let t ← vfmtOf y.val; some (.vcvt g .rz d a s t)
  | 0x4e => r.coded fun g d a x y => do let s ← vfmtOf x.val; let t ← vfmtOf y.val; some (.vcvt g .ru d a s t)
  | 0x4f => r.coded fun g d a x y => do let s ← vfmtOf x.val; let t ← vfmtOf y.val; some (.vcvt g .rd d a s t)
  | 0x50 => r.lanewise .vand
  | 0x51 => r.lanewise .vor
  | 0x52 => r.lanewise .vxor
  | 0x53 => r.lanewise .vandn
  | 0x54 => r.lanewise .vsel
  | 0x55 => r.lanewise .vshuf
  | 0x56 => do let g ← r.guard; let d ← vnumOf r.d; RWord.zero (!r.l && decide (r.b.val < 2)); some (.vbcast g (r.b.val == 1) d r.a)
  | 0x57 => r.coded fun g d a x y => do let s ← vfmtOf x.val; let o ← redOpOf y.val; (Instr.vred g d a s o).checked
  | 0x58 => r.lanewise fun g => .vshl g false
  | 0x59 => r.lanewise fun g => .vshl g true
  | 0x5a => r.lanewise fun g => .vshr g false
  | 0x5b => r.lanewise fun g => .vshr g true
  | 0x5c => r.lanewise fun g => .vsra g false
  | 0x5d => r.lanewise fun g => .vsra g true
  | 0x5e => r.coded fun g d a x y => do let s ← vfmtOf x.val; let t ← packOf y.val; (Instr.vpack g d a s t).checked
  | 0x5f => r.coded fun g d a x y => do let s ← vfmtOf x.val; let t ← packOf y.val; (Instr.vunpack g d a s t).checked
  | _ => none

/-- X slot only, codes 0x60 to 0x77. -/
def decodeX (r : RWord) : Option Instr :=
  match r.op.val with
  | 0x60 => r.special fun g => .vrcp g false
  | 0x61 => r.special fun g => .vrcp g true
  | 0x62 => r.special fun g => .vrsqrt g false
  | 0x63 => r.special fun g => .vrsqrt g true
  | 0x64 => r.special fun g => .vexp2 g false
  | 0x65 => r.special fun g => .vexp2 g true
  | 0x66 => r.special fun g => .vlog2 g false
  | 0x67 => r.special fun g => .vlog2 g true
  | 0x68 => (r.special fun g => .vsincos g false).bind Instr.checked
  | 0x69 => (r.special fun g => .vsincos g true).bind Instr.checked
  | 0x6a => r.special fun g => .vtanh g false
  | 0x6b => r.special fun g => .vtanh g true
  | 0x70 => r.binary fun g => .bnet g 0
  | 0x71 => r.binary fun g => .bnet g 1
  | 0x72 => r.binary fun g => .bnet g 2
  | 0x73 => r.binary fun g => .bnet g 3
  | 0x74 => r.binary fun g => .bnet g 4
  | 0x75 => r.binary fun g => .bnet g 5
  | 0x76 => r.binary fun g => .bnet g 6
  | 0x77 => r.binary fun g => .bnet g 7
  | _ => none

/-- M slot. -/
def decodeMatrix (r : MWord) : Option Instr :=
  match r.op.val with
  | 0x00 => do let g ← r.guard; let b ← r.src; RWord.zero (decide (r.flags.val < 4)); (Instr.mma g .sx3 r.acc r.a b (r.flags.val / 2 == 1) (r.flags.val % 2 == 1)).checked
  | 0x01 => do let g ← r.guard; let b ← r.src; RWord.zero (decide (r.flags.val < 4)); (Instr.mma g .sx5 r.acc r.a b (r.flags.val / 2 == 1) (r.flags.val % 2 == 1)).checked
  | 0x02 => do let g ← r.guard; let b ← r.src; RWord.zero (decide (r.flags.val < 4)); (Instr.mma g .sx8 r.acc r.a b (r.flags.val / 2 == 1) (r.flags.val % 2 == 1)).checked
  | 0x03 => do let g ← r.guard; let b ← r.src; RWord.zero (decide (r.flags.val < 4)); (Instr.mma g .bf16 r.acc r.a b (r.flags.val / 2 == 1) (r.flags.val % 2 == 1)).checked
  | 0x04 => do let g ← r.guard; let b ← r.src; RWord.zero (decide (r.flags.val < 4)); (Instr.mma g .f16 r.acc r.a b (r.flags.val / 2 == 1) (r.flags.val % 2 == 1)).checked
  | 0x05 => do let g ← r.guard; let b ← r.src; RWord.zero (decide (r.flags.val < 4)); (Instr.mma g .f32 r.acc r.a b (r.flags.val / 2 == 1) (r.flags.val % 2 == 1)).checked
  | 0x06 => do let g ← r.guard; let b ← r.src; RWord.zero (decide (r.flags.val < 4)); (Instr.mma g .f64 r.acc r.a b (r.flags.val / 2 == 1) (r.flags.val % 2 == 1)).checked
  | 0x07 => do let g ← r.guard; let b ← r.src; RWord.zero (decide (r.flags.val < 4)); (Instr.mma g .q2 r.acc r.a b (r.flags.val / 2 == 1) (r.flags.val % 2 == 1)).checked
  | 0x08 => do let g ← r.guard; let b ← r.src; RWord.zero (decide (r.flags.val < 4)); (Instr.mma g .q4 r.acc r.a b (r.flags.val / 2 == 1) (r.flags.val % 2 == 1)).checked
  | 0x09 => do let g ← r.guard; let b ← r.src; RWord.zero (decide (r.flags.val < 4)); (Instr.mma g .q8 r.acc r.a b (r.flags.val / 2 == 1) (r.flags.val % 2 == 1)).checked
  | 0x0a => do let g ← r.guard; let b ← r.src; RWord.zero (decide (r.flags.val < 4)); (Instr.mma g .q r.acc r.a b (r.flags.val / 2 == 1) (r.flags.val % 2 == 1)).checked
  | 0x10 => do let g ← r.guard; let b ← r.src; RWord.zero (decide (r.flags.val < 4)); (Instr.mmaH g .sx3 r.acc r.a b (r.flags.val / 2 == 1) (r.flags.val % 2 == 1)).checked
  | 0x11 => do let g ← r.guard; let b ← r.src; RWord.zero (decide (r.flags.val < 4)); (Instr.mmaH g .sx5 r.acc r.a b (r.flags.val / 2 == 1) (r.flags.val % 2 == 1)).checked
  | 0x12 => do let g ← r.guard; let b ← r.src; RWord.zero (decide (r.flags.val < 4)); (Instr.mmaH g .sx8 r.acc r.a b (r.flags.val / 2 == 1) (r.flags.val % 2 == 1)).checked
  | 0x13 => do let g ← r.guard; let b ← r.src; RWord.zero (decide (r.flags.val < 4)); (Instr.mmaH g .bf16 r.acc r.a b (r.flags.val / 2 == 1) (r.flags.val % 2 == 1)).checked
  | 0x14 => do let g ← r.guard; let b ← r.src; RWord.zero (decide (r.flags.val < 4)); (Instr.mmaH g .f16 r.acc r.a b (r.flags.val / 2 == 1) (r.flags.val % 2 == 1)).checked
  | 0x15 => do let g ← r.guard; let b ← r.src; RWord.zero (decide (r.flags.val < 4)); (Instr.mmaH g .f32 r.acc r.a b (r.flags.val / 2 == 1) (r.flags.val % 2 == 1)).checked
  | 0x16 => do let g ← r.guard; let b ← r.src; RWord.zero (decide (r.flags.val < 4)); (Instr.mmaH g .f64 r.acc r.a b (r.flags.val / 2 == 1) (r.flags.val % 2 == 1)).checked
  | 0x17 => do let g ← r.guard; let b ← r.src; RWord.zero (decide (r.flags.val < 4)); (Instr.mmaH g .q2 r.acc r.a b (r.flags.val / 2 == 1) (r.flags.val % 2 == 1)).checked
  | 0x18 => do let g ← r.guard; let b ← r.src; RWord.zero (decide (r.flags.val < 4)); (Instr.mmaH g .q4 r.acc r.a b (r.flags.val / 2 == 1) (r.flags.val % 2 == 1)).checked
  | 0x19 => do let g ← r.guard; let b ← r.src; RWord.zero (decide (r.flags.val < 4)); (Instr.mmaH g .q8 r.acc r.a b (r.flags.val / 2 == 1) (r.flags.val % 2 == 1)).checked
  | 0x1a => do let g ← r.guard; let b ← r.src; RWord.zero (decide (r.flags.val < 4)); (Instr.mmaH g .q r.acc r.a b (r.flags.val / 2 == 1) (r.flags.val % 2 == 1)).checked
  | 0x40 => do let g ← r.guard; let b ← r.src; RWord.zero (decide (r.flags.val < 2)); some (.mmaSd g false r.acc r.a b (r.flags.val == 1))
  | 0x41 => do let g ← r.guard; let b ← r.src; RWord.zero (decide (r.flags.val < 2)); some (.mmaSd g true r.acc r.a b (r.flags.val == 1))
  | 0x48 => do let g ← r.guard; RWord.zero (!r.l && decide (r.flags.val < 2)); (Instr.sdscan g r.acc r.a r.b (r.flags.val == 1)).checked
  | 0x49 => do let g ← r.guard; let b ← r.src; RWord.zero (decide (r.flags.val < 2)); (Instr.sdgen g r.acc r.a b (r.flags.val == 1)).checked
  | 0x60 => do let g ← r.guard; RWord.zero (r.a == 0 && r.b == 0 && !r.l && r.flags == 0); some (.mzero g r.acc)
  | 0x61 => do let g ← r.guard; let f ← mvOf r.flags.val; RWord.zero (r.b == 0 && !r.l); some (.mld g r.acc r.a f)
  | 0x62 => do let g ← r.guard; let f ← mvOf r.flags.val; RWord.zero (r.b == 0 && !r.l); some (.mst g r.acc r.a f)
  | 0x63 => do
    let g ← r.guard; RWord.zero (r.acc == 0 && decide (r.flags.val < 4))
    let i ← if r.flags.val % 2 = 1 then some (some r.a) else if r.a = 0 then some none else none
    let o ← if r.flags.val / 2 = 1 then r.src.map some else if r.b = 0 && !r.l then some none else none
    some (.xftGo g i o)
  | _ => none

/-- E slot. -/
def decodeEngine (r : RWord) : Option Instr :=
  match r.op.val with
  | 0x00 => r.binary .cpy
  | 0x01 => r.binary .cpyh
  | 0x02 => r.bare .xpose
  | 0x03 => do
    let g ← r.guard; let e ← engOf (r.d.val / 16); let b ← r.src
    if r.a = 0 then some (.ewr g e (selWord r.d) b) else some (.ewrBlk g e (selWord r.d) r.a b)
  | 0x04 => do let g ← r.guard; let e ← engOf (r.d.val / 16); RWord.zero (r.d.val % 16 == 0 && r.a == 0 && r.b == 0 && !r.l); some (.ego g e)
  | 0x05 => do let g ← r.guard; let e ← engOf (r.a.val / 16); RWord.zero (!r.l && decide (r.b.val < 2)); some (.erd g r.d e (selWord r.a) (r.b.val == 1))
  | 0x30 => r.pair .tbinit
  | 0x31 => r.pair .tbexpect
  | 0x32 => do let g ← r.guard; let b ← r.src; if r.d = 0 then some (.tbarrive g r.a b) else if r.d = 1 then some (.tbarriveG g r.a b) else none
  | 0x33 => r.pair .tbwait
  | 0x34 => do let g ← r.guard; RWord.zero (r.b == 0 && !r.l); some (.tbtest g r.d r.a)
  | 0x35 => r.operand .sbset
  | 0x36 => r.pair .sbarm
  | 0x37 => r.operand .dbar
  | 0x50 => do
    let g ← r.guard; let b ← r.src
    if r.d = 0 then some (.chsend g (.scalar r.a) b) else if r.d = 1 then (vsrcOf r.a).map fun a => .chsend g (.vector a) b else none
  | 0x51 => do
    let g ← r.guard; let b ← r.src
    if r.a = 0 then some (.chrecv g (.scalar r.d) b) else if r.a = 1 then (vnumOf r.d).map fun d => .chrecv g (.vector d) b else none
  | 0x52 => r.unary .chtest
  | 0x53 => r.operand .grdCheck
  | 0x54 => r.operand .fmtset
  | 0x55 => r.pair .rsave
  | 0x56 => r.pair .rload
  | 0x57 => (r.strided .mcred).bind Instr.checked
  | 0x58 => do let g ← r.guard; let d ← vsrcOf r.d; let b ← r.src; some (.mcst g d r.a b)
  | 0x59 => r.indexedByte .bnload
  | 0x5a => do let g ← r.guard; let b ← r.src; if r.d = 0 then some (.sig g r.a b) else if r.d = 1 then some (.sigMax g r.a b) else none
  | 0x5b => r.pair .wsig
  | _ => none

/-- Front-end words: custom-0 (R352). R352 gives `qfetch` and `qfetch.adv` no rs2 and does not say what the field holds: that a word with another value than 0
there is outside the table, an illegal instruction, is the model's choice, assumption 103. -/
def decodeFront (r : FWord) : Option Instr :=
  if r.opc.val = 0x0B then
    match r.f3.val with
    | 0 => if r.rs2 = 0 then (if r.f7 = 0 then some (.qfetch r.rd r.rs1) else if r.f7 = 1 then some (.qfetchAdv r.rd r.rs1) else none) else none
    | 1 => if r.f7 = 0 then some (.bfext r.rd r.rs1 r.rs2) else none
    | 2 => if r.f7 = 0 then some (.sigwait r.rd r.rs1 r.rs2) else none
    | 3 => if r.f7 = 0 then some (.dispatch r.rd r.rs1 r.rs2) else none
    | _ => none
  else none

/-- A word of a kind. -/
def decodeWord (wk : WordKind) (w : Nat) : Except Reject Instr :=
  let ans := match wk with
    | .a => decodeScalar (.ofNat w)
    | .b => (decodeScalar (.ofNat w)).or (decodeControl (.ofNat w))
    | .l | .k => decodeMem (.ofNat w)
    | .v => decodeVec (.ofNat w)
    | .x => (decodeVec (.ofNat w)).or (decodeX (.ofNat w))
    | .m => decodeMatrix (.ofNat w)
    | .e => decodeEngine (.ofNat w)
    | .front => decodeFront (.ofNat w)
  match ans with
  | some i => .ok i
  | none => .error (if wk = .front then .notCustom else .illegalOp)

/-! ### Crown and bundle -/

/-- A crown word (R56). -/
structure Crown where
  mask : BitVec 8
  brim : Nat
  safe : Bool
deriving DecidableEq, Repr

/-- The crown of a bundle: marker 0b11111, reserved bits 14:0 zero (R56). -/
def decodeCrown (w : Word32) : Except Reject Crown :=
  if w.extractLsb' 27 5 = 31 ∧ w.extractLsb' 0 15 = 0 then .ok ⟨w.extractLsb' 19 8, (w.extractLsb' 16 3).toNat, w.getLsbD 15⟩ else .error .badCrown

/-- The slot kinds in mask-bit order (R55). -/
def slotKinds : List WordKind := [.a, .b, .l, .k, .v, .x, .m, .e]
/-- The kinds a crown names, in order (R55). -/
def Crown.kinds (c : Crown) : List WordKind := slotKinds.zipIdx.filterMap fun (wk, i) => if c.mask.getLsbD i then some wk else none
/-- The bundle's length in words (R55). -/
def Crown.len (c : Crown) : Nat := 1 + c.kinds.length + c.brim
/-- The crown word with these fields. -/
def Crown.encode (c : Crown) : Word32 :=
  BitVec.ofNat 32 (31 * 2 ^ 27 + c.mask.toNat * 2 ^ 19 + c.brim % 8 * 2 ^ 16 + (if c.safe then 2 ^ 15 else 0))

/-! ### Encoding -/

def rform (op : Fin 128) (g : Guard) (d a b : Fin 64) (l : Bool) : Nat := RWord.toNat ⟨op, g.pred, g.neg, d, a, b, l⟩
def mform (op : Fin 128) (g : Guard) (acc : Fin 8) (a b : Fin 64) (l : Bool) (flags : Fin 8) : Nat := MWord.toNat ⟨op, g.pred, g.neg, acc, a, b, l, flags⟩
def plus (base : Nat) (k : Nat) : Fin 128 := ⟨(base + k) % 128, Nat.mod_lt _ (by decide)⟩
def two (hi lo : Bool) : Fin 8 := ⟨hi.toNat * 2 + lo.toNat, by cases hi <;> cases lo <;> decide⟩

/-- The word of an instruction that has one, and the kind of slot it stands in (A, L or V where two kinds may hold it). -/
def encode : Instr → Option (WordKind × Nat)
  | .add g d a b => some (.a, rform 0x00 g d a b.code b.bl)
  | .sub g d a b => some (.a, rform 0x01 g d a b.code b.bl)
  | .mul g d a b => some (.a, rform 0x02 g d a b.code b.bl)
  | .mulh g d a b => some (.a, rform 0x03 g d a b.code b.bl)
  | .mulhN g d a b => some (.a, rform 0x04 g d a b.code b.bl)
  | .div g d a b => some (.a, rform 0x05 g d a b.code b.bl)
  | .divN g d a b => some (.a, rform 0x06 g d a b.code b.bl)
  | .rem g d a b => some (.a, rform 0x07 g d a b.code b.bl)
  | .remN g d a b => some (.a, rform 0x08 g d a b.code b.bl)
  | .and g d a b => some (.a, rform 0x09 g d a b.code b.bl)
  | .or g d a b => some (.a, rform 0x0a g d a b.code b.bl)
  | .xor g d a b => some (.a, rform 0x0b g d a b.code b.bl)
  | .andn g d a b => some (.a, rform 0x0c g d a b.code b.bl)
  | .shl g d a b => some (.a, rform 0x0d g d a b.code b.bl)
  | .shr g d a b => some (.a, rform 0x0e g d a b.code b.bl)
  | .sra g d a b => some (.a, rform 0x0f g d a b.code b.bl)
  | .rol g d a b => some (.a, rform 0x10 g d a b.code b.bl)
  | .ror g d a b => some (.a, rform 0x11 g d a b.code b.bl)
  | .min g d a b => some (.a, rform 0x15 g d a b.code b.bl)
  | .max g d a b => some (.a, rform 0x16 g d a b.code b.bl)
  | .minN g d a b => some (.a, rform 0x17 g d a b.code b.bl)
  | .maxN g d a b => some (.a, rform 0x18 g d a b.code b.bl)
  | .bfx g d a b => some (.a, rform 0x1f g d a b.code b.bl)
  | .bfxN g d a b => some (.a, rform 0x20 g d a b.code b.bl)
  | .bfi g d a b => some (.a, rform 0x21 g d a b.code b.bl)
  | .sel g d a b => some (.a, rform 0x22 g d a b.code b.bl)
  | .lea1 g d a b => some (.a, rform 0x23 g d a b.code b.bl)
  | .lea2 g d a b => some (.a, rform 0x24 g d a b.code b.bl)
  | .lea4 g d a b => some (.a, rform 0x25 g d a b.code b.bl)
  | .lea8 g d a b => some (.a, rform 0x26 g d a b.code b.bl)
  | .addS g d a b => some (.a, rform 0x27 g d a b.code b.bl)
  | .subS g d a b => some (.a, rform 0x28 g d a b.code b.bl)
  | .addSN g d a b => some (.a, rform 0x29 g d a b.code b.bl)
  | .subSN g d a b => some (.a, rform 0x2a g d a b.code b.bl)
  | .clz g d b => some (.a, rform 0x12 g d 0 b.code b.bl)
  | .ctz g d b => some (.a, rform 0x13 g d 0 b.code b.bl)
  | .popc g d b => some (.a, rform 0x14 g d 0 b.code b.bl)
  | .sext8 g d b => some (.a, rform 0x19 g d 0 b.code b.bl)
  | .sext16 g d b => some (.a, rform 0x1a g d 0 b.code b.bl)
  | .sext32 g d b => some (.a, rform 0x1b g d 0 b.code b.bl)
  | .zext8 g d b => some (.a, rform 0x1c g d 0 b.code b.bl)
  | .zext16 g d b => some (.a, rform 0x1d g d 0 b.code b.bl)
  | .zext32 g d b => some (.a, rform 0x1e g d 0 b.code b.bl)
  | .mov g d b => some (.a, rform 0x50 g d 0 b.code b.bl)
  | .cmpEq g d a b => some (.a, rform 0x40 g (PReg.code d) a b.code b.bl)
  | .cmpNe g d a b => some (.a, rform 0x41 g (PReg.code d) a b.code b.bl)
  | .cmpLt g d a b => some (.a, rform 0x42 g (PReg.code d) a b.code b.bl)
  | .cmpLe g d a b => some (.a, rform 0x43 g (PReg.code d) a b.code b.bl)
  | .cmpLtN g d a b => some (.a, rform 0x44 g (PReg.code d) a b.code b.bl)
  | .cmpLeN g d a b => some (.a, rform 0x45 g (PReg.code d) a b.code b.bl)
  | .pand g d a b => some (.a, rform 0x46 g (PReg.code d) (PReg.code a) b.code b.bl)
  | .por g d a b => some (.a, rform 0x47 g (PReg.code d) (PReg.code a) b.code b.bl)
  | .pxor g d a b => some (.a, rform 0x48 g (PReg.code d) (PReg.code a) b.code b.bl)
  | .pandn g d a b => some (.a, rform 0x49 g (PReg.code d) (PReg.code a) b.code b.bl)
  | .pfrom g d b => some (.a, rform 0x4a g (PReg.code d) 0 b.code b.bl)
  | .pto g d a => some (.a, rform 0x4b g d (PReg.code a) 0 false)
  | .liImm g d i => some (.a, rform 0x51 g d (part i.toNat 64) (part i.toNat 1) false)
  | .liBrim g d b => some (.a, rform 0x51 g d 0 b.code true)
  | .rdsp g d x => some (.a, rform 0x52 g d x.code 0 false)
  | .wrsp g x b => some (.a, rform 0x53 g x.code 0 b.code b.bl)
  | .br g o => some (.b, rform 0x60 g (part o.toNat 4096) (part o.toNat 64) (part o.toNat 1) false)
  | .call g o => some (.b, rform 0x64 g (part o.toNat 4096) (part o.toNat 64) (part o.toNat 1) false)
  | .trap g o => some (.b, rform 0x69 g (part o.toNat 4096) (part o.toNat 64) (part o.toNat 1) false)
  | .sys g o => some (.b, rform 0x6a g (part o.toNat 4096) (part o.toNat 64) (part o.toNat 1) false)
  | .brcNzOffset g a o => some (.b, rform 0x61 g (part o.toNat 64) a (part o.toNat 1) false)
  | .brcNzAbs g a b => some (.b, rform 0x61 g 0 a b.code true)
  | .brcZOffset g a o => some (.b, rform 0x62 g (part o.toNat 64) a (part o.toNat 1) false)
  | .brcZAbs g a b => some (.b, rform 0x62 g 0 a b.code true)
  | .jr g a => some (.b, rform 0x63 g 0 a 0 false)
  | .ret g => some (.b, rform 0x65 g 0 0 0 false)
  | .loopClear g => some (.b, rform 0x66 g 0 0 0 false)
  | .done g => some (.b, rform 0x67 g 0 0 0 false)
  | .trig g => some (.b, rform 0x68 g 0 0 0 false)
  | .loop g o b => some (.b, rform 0x66 g (part o.toNat 64) (part o.toNat 1) b.code b.bl)
  | .ldI8 g d a b => some (.l, rform 0x00 g d a b.code b.bl)
  | .ldN8 g d a b => some (.l, rform 0x01 g d a b.code b.bl)
  | .ldI16 g d a b => some (.l, rform 0x02 g d a b.code b.bl)
  | .ldN16 g d a b => some (.l, rform 0x03 g d a b.code b.bl)
  | .ldI32 g d a b => some (.l, rform 0x04 g d a b.code b.bl)
  | .ldN32 g d a b => some (.l, rform 0x05 g d a b.code b.bl)
  | .ld64 g d a b => some (.l, rform 0x06 g d a b.code b.bl)
  | .st8 g d a b => some (.l, rform 0x07 g d a b.code b.bl)
  | .st16 g d a b => some (.l, rform 0x08 g d a b.code b.bl)
  | .st32 g d a b => some (.l, rform 0x09 g d a b.code b.bl)
  | .st64 g d a b => some (.l, rform 0x0a g d a b.code b.bl)
  | .ldv g d a b => some (.l, rform 0x0b g (VNum.code d) a b.code b.bl)
  | .stv g d a b => some (.l, rform 0x0c g (VNum.code d) a b.code b.bl)
  | .ldg g d a b => some (.l, rform 0x0d g (VNum.code d) a b.code false)
  | .stg g d a b => some (.l, rform 0x0e g (VNum.code d) a b.code false)
  | .ldxI8 g d a b => some (.l, rform 0x20 g d a b.code b.bl)
  | .ldxN8 g d a b => some (.l, rform 0x21 g d a b.code b.bl)
  | .ldxI16 g d a b => some (.l, rform 0x22 g d a b.code b.bl)
  | .ldxN16 g d a b => some (.l, rform 0x23 g d a b.code b.bl)
  | .ldxI32 g d a b => some (.l, rform 0x24 g d a b.code b.bl)
  | .ldxN32 g d a b => some (.l, rform 0x25 g d a b.code b.bl)
  | .ldx64 g d a b => some (.l, rform 0x26 g d a b.code b.bl)
  | .stx8 g d a b => some (.l, rform 0x27 g d a b.code b.bl)
  | .stx16 g d a b => some (.l, rform 0x28 g d a b.code b.bl)
  | .stx32 g d a b => some (.l, rform 0x29 g d a b.code b.bl)
  | .stx64 g d a b => some (.l, rform 0x2a g d a b.code b.bl)
  | .ldxAcq32 g d a s => some (.l, rform 0x2b g d a s.code false)
  | .ldxAcq64 g d a s => some (.l, rform 0x2c g d a s.code false)
  | .stxRel32 g d a s => some (.l, rform 0x2d g d a s.code false)
  | .stxRel64 g d a s => some (.l, rform 0x2e g d a s.code false)
  | .amoAdd32 g d a b => some (.l, rform 0x2f g d a b.code b.bl)
  | .amoAdd64 g d a b => some (.l, rform 0x30 g d a b.code b.bl)
  | .amoMin32 g d a b => some (.l, rform 0x31 g d a b.code b.bl)
  | .amoMin64 g d a b => some (.l, rform 0x32 g d a b.code b.bl)
  | .amoMax32 g d a b => some (.l, rform 0x33 g d a b.code b.bl)
  | .amoMax64 g d a b => some (.l, rform 0x34 g d a b.code b.bl)
  | .amoAnd64 g d a b => some (.l, rform 0x35 g d a b.code b.bl)
  | .amoOr64 g d a b => some (.l, rform 0x36 g d a b.code b.bl)
  | .amoXor64 g d a b => some (.l, rform 0x37 g d a b.code b.bl)
  | .amoSwap32 g d a b => some (.l, rform 0x38 g d a b.code b.bl)
  | .amoSwap64 g d a b => some (.l, rform 0x39 g d a b.code b.bl)
  | .amoCas64 g d a b => some (.l, rform 0x3a g d a b.code b.bl)
  | .amoFaddF32 g d a b => some (.l, rform 0x3b g d a b.code b.bl)
  | .amoFaddF64 g d a b => some (.l, rform 0x3c g d a b.code b.bl)
  | .nbopAddF32 g d a b => some (.l, rform 0x40 g (VNum.code d) a b.code b.bl)
  | .nbopAddF64 g d a b => some (.l, rform 0x41 g (VNum.code d) a b.code b.bl)
  | .nbopAddI32 g d a b => some (.l, rform 0x42 g (VNum.code d) a b.code b.bl)
  | .nbopAddI64 g d a b => some (.l, rform 0x43 g (VNum.code d) a b.code b.bl)
  | .nbopMaxF32 g d a b => some (.l, rform 0x44 g (VNum.code d) a b.code b.bl)
  | .nbopMinF32 g d a b => some (.l, rform 0x45 g (VNum.code d) a b.code b.bl)
  | .nbopScaleF32 g d a b => some (.l, rform 0x46 g (VNum.code d) a b.code b.bl)
  | .nbopScaleF64 g d a b => some (.l, rform 0x47 g (VNum.code d) a b.code b.bl)
  | .scld g d a b => some (.l, rform 0x0f g (scaleCode d) a b.code b.bl)
  | .fence g s => some (.l, rform 0x48 g 0 s.code 0 false)
  | .xfence g p q => some (.l, rform 0x49 g (part p.toNat 1) (part q.toNat 1) 0 false)
  | .fenceIo g => some (.l, rform 0x4a g 0 0 0 false)
  | .vadd g f d a b => some (.v, rform (plus 0x00 f.code.val) g (VNum.code d) a.code b.code b.bl)
  | .vsub g f d a b => some (.v, rform (plus 0x08 f.code.val) g (VNum.code d) a.code b.code b.bl)
  | .vmul g f d a b => some (.v, rform (plus 0x10 f.code.val) g (VNum.code d) a.code b.code b.bl)
  | .vfma g f d a b => some (.v, rform (plus 0x18 f.code.val) g (VNum.code d) a.code b.code b.bl)
  | .vmin g f d a b => some (.v, rform (plus 0x20 f.code.val) g (VNum.code d) a.code b.code b.bl)
  | .vmax g f d a b => some (.v, rform (plus 0x28 f.code.val) g (VNum.code d) a.code b.code b.bl)
  | .vaddS g f d a b => some (.v, rform (plus 0x30 f.code.val) g (VNum.code d) a.code b.code b.bl)
  | .vsubS g f d a b => some (.v, rform (plus 0x34 f.code.val) g (VNum.code d) a.code b.code b.bl)
  | .vcmulC64 g d a b => some (.v, rform 0x1c g (VNum.code d) a.code b.code false)
  | .vcmulC32 g d a b => some (.v, rform 0x1d g (VNum.code d) a.code b.code b.bl)
  | .vlrec g s d a b => some (.v, rform (plus 0x1e s.toNat) g (VNum.code d) (VNum.code a) (VNum.code b) false)
  | .vcmpEq g f d a b => some (.v, rform (plus 0x38 f.code.val) g (PReg.code d) a.code b.code b.bl)
  | .vcmpLt g f d a b => some (.v, rform (plus 0x40 f.code.val) g (PReg.code d) a.code b.code b.bl)
  | .vcmpLe g f d a b => some (.v, rform (plus 0x48 f.code.val) g (PReg.code d) a.code b.code b.bl)
  | .vcvt g r d a s t => some (.v, rform (plus 0x4c r.code.val) g (VNum.code d) a.code (colCode s t.code) false)
  | .vand g d a b => some (.v, rform 0x50 g (VNum.code d) a.code b.code b.bl)
  | .vor g d a b => some (.v, rform 0x51 g (VNum.code d) a.code b.code b.bl)
  | .vxor g d a b => some (.v, rform 0x52 g (VNum.code d) a.code b.code b.bl)
  | .vandn g d a b => some (.v, rform 0x53 g (VNum.code d) a.code b.code b.bl)
  | .vsel g d a b => some (.v, rform 0x54 g (VNum.code d) a.code b.code b.bl)
  | .vshuf g d a b => some (.v, rform 0x55 g (VNum.code d) a.code b.code b.bl)
  | .vbcast g w d a => some (.v, rform 0x56 g (VNum.code d) a (oddCode w) false)
  | .vred g d a s o => some (.v, rform 0x57 g (VNum.code d) a.code (colCode s o.code) false)
  | .vshl g w d a b => some (.v, rform (plus 0x58 w.toNat) g (VNum.code d) a.code b.code b.bl)
  | .vshr g w d a b => some (.v, rform (plus 0x5a w.toNat) g (VNum.code d) a.code b.code b.bl)
  | .vsra g w d a b => some (.v, rform (plus 0x5c w.toNat) g (VNum.code d) a.code b.code b.bl)
  | .vpack g d a s t => some (.v, rform 0x5e g (VNum.code d) a.code (colCode s t.code) false)
  | .vunpack g d a s t => some (.v, rform 0x5f g (VNum.code d) a.code (colCode s t.code) false)
  | .vrcp g w d a => some (.x, rform (plus 0x60 w.toNat) g (VNum.code d) a.code 0 false)
  | .vrsqrt g w d a => some (.x, rform (plus 0x62 w.toNat) g (VNum.code d) a.code 0 false)
  | .vexp2 g w d a => some (.x, rform (plus 0x64 w.toNat) g (VNum.code d) a.code 0 false)
  | .vlog2 g w d a => some (.x, rform (plus 0x66 w.toNat) g (VNum.code d) a.code 0 false)
  | .vsincos g w d a => some (.x, rform (plus 0x68 w.toNat) g (VNum.code d) a.code 0 false)
  | .vtanh g w d a => some (.x, rform (plus 0x6a w.toNat) g (VNum.code d) a.code 0 false)
  | .bnet g c d a b => some (.x, rform (plus 0x70 c.val) g d a b.code b.bl)
  | .mma g f acc a b sc z => some (.m, mform (plus 0x00 f.code.val) g acc a b.code b.bl (two sc z))
  | .mmaH g f acc a b sc z => some (.m, mform (plus 0x10 f.code.val) g acc a b.code b.bl (two sc z))
  | .mmaSd g h acc a b z => some (.m, mform (plus 0x40 h.toNat) g acc a b.code b.bl (two false z))
  | .sdscan g acc a b h => some (.m, mform 0x48 g acc a b false (two false h))
  | .sdgen g acc a b s => some (.m, mform 0x49 g acc a b.code b.bl (two false s))
  | .mzero g acc => some (.m, mform 0x60 g acc 0 0 false 0)
  | .mld g acc a f => some (.m, mform 0x61 g acc a 0 false f.code)
  | .mst g acc a f => some (.m, mform 0x62 g acc a 0 false f.code)
  | .xftGo g i o => some (.m, mform 0x63 g 0 (i.getD 0) ((o.map Src.code).getD 0) ((o.map Src.bl).getD false) (two o.isSome i.isSome))
  | .cpy g d a b => some (.e, rform 0x00 g d a b.code b.bl)
  | .cpyh g d a b => some (.e, rform 0x01 g d a b.code b.bl)
  | .xpose g => some (.e, rform 0x02 g 0 0 0 false)
  | .ewr g e w b => some (.e, rform 0x03 g (selCode e w) 0 b.code b.bl)
  | .ewrBlk g e w a b => some (.e, rform 0x03 g (selCode e w) a b.code b.bl)
  | .ego g e => some (.e, rform 0x04 g (selCode e 0) 0 0 false)
  | .erd g d e w s => some (.e, rform 0x05 g d (selCode e w) (oddCode s) false)
  | .tbinit g a b => some (.e, rform 0x30 g 0 a b.code b.bl)
  | .tbexpect g a b => some (.e, rform 0x31 g 0 a b.code b.bl)
  | .tbarrive g a b => some (.e, rform 0x32 g 0 a b.code b.bl)
  | .tbwait g a b => some (.e, rform 0x33 g 0 a b.code b.bl)
  | .sbarm g a b => some (.e, rform 0x36 g 0 a b.code b.bl)
  | .rsave g a b => some (.e, rform 0x55 g 0 a b.code b.bl)
  | .rload g a b => some (.e, rform 0x56 g 0 a b.code b.bl)
  | .sig g a b => some (.e, rform 0x5a g 0 a b.code b.bl)
  | .wsig g a b => some (.e, rform 0x5b g 0 a b.code b.bl)
  | .tbarriveG g a b => some (.e, rform 0x32 g 1 a b.code b.bl)
  | .sigMax g a b => some (.e, rform 0x5a g 1 a b.code b.bl)
  | .tbtest g d a => some (.e, rform 0x34 g d a 0 false)
  | .sbset g b => some (.e, rform 0x35 g 0 0 b.code b.bl)
  | .dbar g b => some (.e, rform 0x37 g 0 0 b.code b.bl)
  | .grdCheck g b => some (.e, rform 0x53 g 0 0 b.code b.bl)
  | .fmtset g b => some (.e, rform 0x54 g 0 0 b.code b.bl)
  | .chsend g (.scalar r) b => some (.e, rform 0x50 g 0 r b.code b.bl)
  | .chsend g (.vector v) b => some (.e, rform 0x50 g 1 v.code b.code b.bl)
  | .chrecv g (.scalar r) b => some (.e, rform 0x51 g r 0 b.code b.bl)
  | .chrecv g (.vector v) b => some (.e, rform 0x51 g (VNum.code v) 1 b.code b.bl)
  | .chtest g d b => some (.e, rform 0x52 g d 0 b.code b.bl)
  | .mcred g d a b => some (.e, rform 0x57 g (VNum.code d) a b.code b.bl)
  | .mcst g d a b => some (.e, rform 0x58 g d.code a b.code b.bl)
  | .bnload g c a b => some (.e, rform 0x59 g (scaleCode c) a b.code b.bl)
  | .qfetch rd rs1 => some (.front, FWord.toNat ⟨0, 0, rs1, 0, rd, 0x0B⟩)
  | .qfetchAdv rd rs1 => some (.front, FWord.toNat ⟨1, 0, rs1, 0, rd, 0x0B⟩)
  | .bfext rd rs1 rs2 => some (.front, FWord.toNat ⟨0, rs2, rs1, 1, rd, 0x0B⟩)
  | .sigwait rd rs1 rs2 => some (.front, FWord.toNat ⟨0, rs2, rs1, 2, rd, 0x0B⟩)
  | .dispatch rd rs1 rs2 => some (.front, FWord.toNat ⟨0, rs2, rs1, 3, rd, 0x0B⟩)
  | _ => none

/-! ### The opcode table's words -/

/-- Which kinds of word the table's words are tried as, in this order. The table's slot rows give a word without its slot kind, and one word can
stand in several kinds with another meaning in each (R73); the crown tells them apart in a bundle (assumption 6). -/
def tableKinds : List WordKind := [.front, .b, .l, .x, .m, .e]

/-- The first kind in which a word names an instruction. -/
def firstKind (w : Nat) : List WordKind → Option (WordKind × Instr)
  | [] => none
  | wk :: ks =>
    match decodeWord wk w with
    | .ok i => some (wk, i)
    | .error _ => firstKind w ks

/-- The instruction that the decoder reads from an opcode-table word (32 bits). -/
def decodeTableWord (nbits w : Nat) : Option Instr := if nbits ≤ 32 ∧ w < 2 ^ 32 then (firstKind w tableKinds).map (·.2) else none

end Sys2Proof
end

