-- ==== Sys2Proof/Machine/Control.lean ====
section
/-!
DEFINITION. Sys2Proof/Machine/Control.lean: control transfers, the counted loop, retirement and the trap instructions (R107 to R113, R115). A transfer
takes effect when its bundle commits: a slot notes its target in the bundle being issued.
-/
namespace Sys2Proof.Machine

/-- An instruction-memory word (R57). -/
def Core.iword (k : Core) (w : Nat) : Word32 := (k.imem.lookup w).getD 0
/-- The bundle-start map bit of a word (R58). -/
def Core.marked (k : Core) (w : Nat) : Bool := decide (w < 65536) && k.imap.contains w
/-- The length of the bundle at a word (R55). -/
def Core.bundleLen (k : Core) (w : Nat) : Nat :=
  match decodeCrown (k.iword w) with
  | .ok c => c.len
  | .error _ => 1

/-- The bundle transfers control to a byte address (R107). -/
def State.jumpTo (s : State) (target : Word) : State := s.mapIssue fun i => { i with jump := some target }
/-- Crown address plus a word offset (R108). -/
def State.relative (s : State) (off : Word) : Word := s.issue.pc.setWidth 64 + off * 4

/-- R108. -/
def execBr (g : Guard) (off : BitVec 18) (s : State) : Out := plainSlot g s fun s => s.jumpTo (s.relative (off.signExtend 64))
/-- R108: the link is the byte address of the bundle that follows. Where the call's bundle ends at the last word of instruction memory no bundle follows,
and the spec names no link: the model writes 0x40000, which no transfer accepts (assumption 15). -/
def execCall (g : Guard) (off : BitVec 18) (s : State) : Out :=
  plainSlot g s fun s => (s.writeS 63 1 (s.issue.pc.setWidth 64 + BitVec.ofNat 64 (4 * s.issue.len))).jumpTo (s.relative (off.signExtend 64))
/-- R109, offset form. -/
def execBrcNzOffset (g : Guard) (a : SReg) (off : BitVec 12) (s : State) : Out :=
  plainSlot g s fun s => if s.opA a ≠ 0 then s.jumpTo (s.relative (off.signExtend 64)) else s
/-- R109, absolute form. -/
def execBrcNzAbs (g : Guard) (a : SReg) (b : Brim) (s : State) : Out :=
  plainSlot g s fun s => if s.opA a ≠ 0 then s.jumpTo (s.brimVal b) else s
/-- R109, offset form. -/
def execBrcZOffset (g : Guard) (a : SReg) (off : BitVec 12) (s : State) : Out :=
  plainSlot g s fun s => if s.opA a = 0 then s.jumpTo (s.relative (off.signExtend 64)) else s
/-- R109, absolute form. -/
def execBrcZAbs (g : Guard) (a : SReg) (b : Brim) (s : State) : Out :=
  plainSlot g s fun s => if s.opA a = 0 then s.jumpTo (s.brimVal b) else s
/-- A transfer to the address in a register; an unsettled one gives BAD_TARGET, whatever it reads as (R110). -/
def State.jumpReg (r : SReg) (s : State) : State :=
  (s.mapIssue fun i => { i with jumpOpen := decide (r ≠ 0) && s.me.unsettled i.ctx (.s r) }).jumpTo (s.opA r)
/-- R110. -/
def execJr (g : Guard) (a : SReg) (s : State) : Out := plainSlot g s (State.jumpReg a)
/-- R110. -/
def execRet (g : Guard) (s : State) : Out := plainSlot g s (State.jumpReg 63)

/-- R111: the fields are checked whatever the predicate: an offset inside the loop bundle itself is ILLEGAL_OP, an unmarked end is BAD_TARGET on the loop
bundle (assumption 29). -/
def State.loopFault (s : State) (off : BitVec 12) : Option Nat :=
  if off.toNat < s.issue.len then some Code.illegalOp
  else if s.me.marked (s.issue.pc.toNat / 4 + off.toNat) then none
  else some Code.badTarget
/-- R111. -/
def execLoop (g : Guard) (off : BitVec 12) (b : Src) (s : State) : Out :=
  let w := s.issue.pc.toNat / 4
  let endw := w + off.toNat
  match s.loopFault off with
  | some code => .next (s.slotFault ⟨code, 0, 0⟩)
  | none =>
    plainSlot g s fun s =>
      let n := (s.opB b).toNat % 2 ^ 32
      if n = 0 then (s.mapIssue fun i => { i with loopSet := some .zero }).jumpTo (BitVec.ofNat 64 (4 * (endw + s.me.bundleLen endw)))
      else s.mapIssue fun i => { i with loopSet := some ⟨BitVec.ofNat 16 endw, BitVec.ofNat 16 (w + s.issue.len), BitVec.ofNat 32 (n - 1)⟩ }
/-- R111, the clear form. -/
def execLoopClear (g : Guard) (s : State) : Out := plainSlot g s fun s => s.mapIssue fun i => { i with loopSet := some .zero }

/-- R113: the context retires when its bundle commits. -/
def execDone (g : Guard) (s : State) : Out := plainSlot g s fun s => s.mapIssue fun i => { i with retire := true }

/-- R115: the bundle commits, then the core freezes with a src 1 record. -/
def execTrap (g : Guard) (code : BitVec 18) (s : State) : Out :=
  plainSlot g s fun s => s.mapIssue fun i => { i with trap := some (BitVec.ofNat 8 Code.trap, code) }
/-- R115. -/
def execSys (g : Guard) (code : BitVec 18) (s : State) : Out :=
  plainSlot g s fun s => s.mapIssue fun i => { i with trap := some (BitVec.ofNat 8 Code.sys, code) }

end Sys2Proof.Machine
end

