-- ==== Sys2Proof/Machine/Matrix.lean ====
section
/-!
DEFINITION. Sys2Proof/Machine/Matrix.lean: the matrix unit and the seeded weights (R140 to R160). An operation forms its result from its operands when
its bundle issues; the result lands when the operation completes, and what depends on operand bytes written meanwhile is open (R142).
-/

namespace Sys2Proof
open Sys2Proof.Machine

/-! ### Shapes (R140) -/

/-- The format of a `.q` form under `%fmtn`. -/
def MFmt.resolve (fmtn : BitVec 5) : MFmt → MFmt
  | .q => match fmtnWidth fmtn with | 2 => .q2 | 4 => .q4 | _ => .q8
  | f => f
/-- Depth K; `.q` counts as `.q8`, see `resolve`. -/
def MFmt.depth : MFmt → Nat
  | .sx3 => 256 | .sx5 => 128 | .sx8 => 64 | .bf16 => 64 | .f16 => 64 | .f32 => 16 | .f64 => 8
  | .q2 => 256 | .q4 => 256 | .q8 => 128 | .q => 128
def MFmt.rowBytes : MFmt → Nat
  | .sx3 => 128 | .sx5 => 96 | .sx8 => 72 | .bf16 => 128 | .f16 => 128 | .f32 => 64 | .f64 => 64
  | .q2 => 64 | .q4 => 128 | .q8 => 128 | .q => 128
def MFmt.bRows : MFmt → Nat
  | .f64 => 32
  | _ => 64
def MFmt.occupancy : MFmt → Nat
  | .bf16 | .f16 | .f32 | .f64 => 128
  | _ => 64
/-- The format code of a handle entry that serves the form (R33, R148). -/
def MFmt.entryCode : MFmt → Nat
  | .sx3 => 0x0C | .sx5 => 0x0D | .sx8 => 0x0E | .bf16 => 0x03 | .f16 => 0x02 | .f32 => 0x01 | .f64 => 0x00
  | .q2 => 0x11 | .q4 => 0x12 | .q8 => 0x14 | .q => 0x14

/-! ### Elements and the sums (R45, R47 to R50, R147) -/

/-- Element k of an operand row of a float form, subnormals of the 16-bit formats flushed (R38). -/
def MFmt.fpElem (f : MFmt) (row k : Nat) : Fp :=
  match f with
  | .sx3 => sxRowElem 2 row k
  | .sx5 => sxRowElem 4 row k
  | .sx8 => sxRowElem 7 row k
  | .bf16 => Fp.flush Machine.bf16 (bits row (16 * k) 16)
  | .f16 => Fp.flush fp16 (bits row (16 * k) 16)
  | .f64 => Fp.ofBits fp64 (bits row (64 * k) 64)
  | _ => Fp.ofBits fp32 (bits row (32 * k) 32)
/-- Width of a narrow element. -/
def MFmt.narrowW : MFmt → Nat
  | .q2 => 2
  | .q4 => 4
  | _ => 8
def MFmt.fpRow (f : MFmt) (row : Nat) : List Fp := (List.range f.depth).map (f.fpElem row)
def MFmt.intRow (f : MFmt) (fmtn : BitVec 5) (row : Nat) : List Int :=
  (List.range f.depth).map fun k => narrowDecode fmtn f.narrowW (bits row (f.narrowW * k) f.narrowW)

/-! ### Converted rows (R159) -/

/-- Bytes of a scratchpad row (R159). -/
def MvFmt.rowBytes : MvFmt → Nat
  | .raw => 256 | .bf16 => 128 | .f16 => 128 | .sx8 => 72 | .sx5 => 48 | .sx3 => 32 | .f32w => 128 | .i8 => 64
/-- A row as `mst` writes it. -/
def MvFmt.put (f : MvFmt) (r : VWord) : Nat :=
  let sx (m : Nat) := sxEncodeRow m ((elems r 32).map fun x => some (Fp.ofBits fp32 x))
  match f with
  | .raw => r.toNat
  | .bf16 => joinW 16 ((elems r 32).map (fpCvt fp32 Machine.bf16 .rn))
  | .f16 => joinW 16 ((elems r 32).map (fpCvt fp32 fp16 .rn))
  | .sx8 => sx 7
  | .sx5 => sx 4
  | .sx3 => sx 2
  | .f32w => joinW 32 ((elems r 64).map (fpCvt fp64 fp32 .rn))
  | .i8 => joinW 8 ((elems r 32).map fun x => ofSigned 8 (clampInt true 8 (toSigned 32 x)))
/-- A row as `mld` reads it. -/
def MvFmt.take (f : MvFmt) (v : Nat) : VWord :=
  let sx (m : Nat) := vOfElems 32 ((List.range 64).map fun i => (sxRowElem m v i).round fp32 .rn)
  match f with
  | .raw => BitVec.ofNat 2048 v
  | .bf16 => vOfElems 32 ((splitW 16 64 v).map (fpCvt Machine.bf16 fp32 .rn))
  | .f16 => vOfElems 32 ((splitW 16 64 v).map (fpCvt fp16 fp32 .rn))
  | .sx8 => sx 7
  | .sx5 => sx 4
  | .sx3 => sx 2
  | .f32w => vOfElems 64 ((splitW 32 32 v).map (fpCvt fp32 fp64 .rn))
  | .i8 => vOfElems 32 ((splitW 8 64 v).map fun x => ofSigned 32 (toSigned 8 x))

/-- Whether byte `o` of an SX row bears on element `c`: its block's scale, or a byte of its own code (R35). -/
def sxBears (m o c : Nat) : Bool :=
  let q := o % sxBlockBytes m
  c / 16 == o / sxBlockBytes m && (decide (q < 2) || (decide ((q - 2) * 8 < (c % 16 + 1) * (m + 1)) && decide (c % 16 * (m + 1) < (q - 1) * 8)))
/-- Whether byte `o` of an operand row bears on element `k` of the row (R140). -/
def MFmt.bears (f : MFmt) (o k : Nat) : Bool :=
  match f with
  | .sx3 => sxBears 2 o k
  | .sx5 => sxBears 4 o k
  | .sx8 => sxBears 7 o k
  | .bf16 | .f16 => k == o / 2
  | .f32 => k == o / 4
  | .f64 => k == o / 8
  | .q2 => k / 4 == o
  | .q4 => k / 2 == o
  | .q8 | .q => k == o
/-- Whether byte `o` of a row of a converted operand bears on element `c` (R159). -/
def MvFmt.bears (f : MvFmt) (o c : Nat) : Bool :=
  match f with
  | .raw => c == o / 4
  | .bf16 | .f16 => c == o / 2
  | .sx8 => sxBears 7 o c
  | .sx5 => sxBears 4 o c
  | .sx3 => sxBears 2 o c
  | .f32w => c == o / 4
  | .i8 => c == o
end Sys2Proof

namespace Sys2Proof.Machine

/-! ### The sums (R47 to R50, R145, R147) -/

/-- One block of at most 16 products (R48). -/
def blockStep (acc : Nat) (ab : List (Fp × Fp)) : Nat :=
  let ps := (ab.filter fun p => !p.1.isZero).map fun p => p.1.mul p.2
  if ps = [] then acc
  else if ps.any Fp.isNan || (ps.any (· == .inf false) && ps.any (· == .inf true)) then fp32.nanBits
  else if ps.any (· == .inf false) then ((Fp.ofBits fp32 acc).add (.inf false)).round fp32 .rn
  else if ps.any (· == .inf true) then ((Fp.ofBits fp32 acc).add (.inf true)).round fp32 .rn
  else
    let s := ps.foldl Fp.add Fp.zero
    ((Fp.ofBits fp32 acc).add (if s.isZero then Fp.zero else s)).round fp32 .rn
/-- The k blocks in ascending order (R48). -/
def blockSum : Nat → Nat → List (Fp × Fp) → Nat
  | 0, acc, _ => acc
  | n + 1, acc, ab => blockSum n (blockStep acc (ab.take 16)) (ab.drop 16)
/-- The FP64 chain (R49). -/
def chain64 (acc : Nat) (ab : List (Fp × Fp)) : Nat :=
  ab.foldl (fun r p => if p.1.isZero then r else ((p.1.mul p.2).add (Fp.ofBits fp64 r)).round fp64 .rn) acc
/-- One narrow element (R50, R147): `e` is the scale byte of the F = 1 form. -/
def narrowStep (acc : Nat) (sum : Int) : Option Nat → Nat
  | none => ofSigned 32 (toSigned 32 acc + sum)
  | some e => if e = 255 then fp32.nanBits else ((Fp.ofBits fp32 acc).add ((Fp.ofInt sum).scale ((e : Int) - 127))).round fp32 .rn

/-- An accumulator row after a float product: `bs` lists the columns of B. -/
def floatRow (f : MFmt) (bs : List (List Fp)) (a : List Fp) (acc : VWord) : VWord :=
  match f with
  | .f64 => vOfElems 64 (((elems acc 64).zip bs).map fun (x, b) => chain64 x (a.zip b))
  | _ => vOfElems 32 (((elems acc 32).zip bs).map fun (x, b) => blockSum (f.depth / 16) x (a.zip b))
/-- An accumulator row after a narrow product; a row whose elements are all zero is left as it is (R145, R147). -/
def narrowRow (bs : List (List Int)) (sc : Option (BitVec 512)) (a : List Int) (acc : VWord) : VWord :=
  if a.all (· == 0) then acc
  else vOfElems 32 ((((elems acc 32).zip bs).zipIdx).map fun ((x, b), c) =>
    narrowStep x ((a.zip b).foldl (fun t p => t + p.1 * p.2) 0) (sc.map fun v => bits v.toNat (8 * c) 8))
/-- The effect of `mma` on the 64 rows of an accumulator (R145). -/
def mmaRows (f : MFmt) (fmtn : BitVec 5) (sc : Option (BitVec 512)) (as bs : List Nat) (acc : List VWord) : List VWord :=
  if f.isNarrow then
    let b := bs.map (f.intRow fmtn)
    (as.zip acc).map fun (a, r) => narrowRow b sc (f.intRow fmtn a) r
  else
    let b := bs.map f.fpRow
    (as.zip acc).map fun (a, r) => floatRow f b (f.fpRow a) r
/-- The elements of an A row that contribute, as bits: those that are not zero (R47). -/
def liveElems (f : MFmt) (fmtn : BitVec 5) (a : Nat) : Nat :=
  ((if f.isNarrow then (f.intRow fmtn a).map (· != 0) else (f.fpRow a).map fun x => !x.isZero).zipIdx).foldl (fun m (x, k) => if x then m + 2 ^ k else m) 0
/-- Zero elements of the A rows (R146). -/
def zeroCount (f : MFmt) (fmtn : BitVec 5) (as : List Nat) : Nat :=
  (as.map fun a => if f.isNarrow then (f.intRow fmtn a).countP (· == 0) else (f.fpRow a).countP Fp.isZero).sum

/-! ### Seeded weights (R151 to R153) -/

/-- The elements of a basis in the order (k, c): true for -1 (R151). -/
def basisGo : Nat → Nat → List Bool
  | 0, _ => []
  | n + 1, st =>
    let t := st * 2 % 2 ^ 64
    let t := if bit st 63 then t ^^^ 0x1B else t
    bit t 0 :: basisGo n t
def basis (s j : Nat) : List Bool :=
  let st := s ^^^ (j * 0x9E3779B97F4A7C15 % 2 ^ 64)
  basisGo 4096 (if st = 0 then 0x0123456789ABCDEF else st)

/-- A seed-descriptor record (R152): seed, header, whether its reserved bytes are zero, coefficients of each term. -/
structure SeedDesc where
  seed : Nat
  header : Nat
  clean : Bool
  coefs : List (List Nat)
deriving DecidableEq, Repr

def seedTerms (header : Nat) : Nat := header % 16
/-- The bytes of the record (R152). -/
def seedExtent (header : Nat) : Nat := if 1 ≤ seedTerms header ∧ seedTerms header ≤ 8 then 64 + 128 * seedTerms header else 64
def seedFmt (header : Nat) : FpFmt := if bits header 8 5 = 2 then fp16 else bf16
def State.seedDesc (s : State) (c : CoreId) (a : Nat) : SeedDesc :=
  let h := s.spadReadOn .mtx c (a + 8) 8
  { seed := s.spadReadOn .mtx c a 8, header := h, clean := s.spadReadOn .mtx c (a + 16) 48 == 0,
    coefs := (List.range (seedTerms h)).map fun j => splitW 16 64 (s.spadReadOn .mtx c (a + 64 + 128 * j) 128) }
/-- The record is one that an instruction of coefficient format `want`, where it names one, accepts (R152). -/
def SeedDesc.ok (d : SeedDesc) (want : Option Nat) : Bool :=
  let f := bits d.header 8 5
  d.clean && bits d.header 4 4 == 0 && bits d.header 13 51 == 0 && (f == 2 || f == 3) && decide (1 ≤ seedTerms d.header ∧ seedTerms d.header ≤ 8) &&
    (match want with | some w => f == w | none => true)
/-- The weights, in the order (k, c), as encodings of the coefficient format (R153). -/
def SeedDesc.weights (d : SeedDesc) : List Nat :=
  let f := seedFmt d.header
  (d.coefs.zipIdx).foldl (fun w (co, j) =>
    ((w.zip (basis d.seed j)).zipIdx).map fun ((x, g), t) =>
      let v := Fp.ofBits f (co.getD (t % 64) 0)
      ((Fp.ofBits f x).add (if g then v.neg else v)).round f .rn)
    (List.replicate 4096 0)
/-- Rows of 64 elements (k, c). -/
def rowsOf (xs : List α) : Nat → List (List α)
  | 0 => []
  | n + 1 => xs.take 64 :: rowsOf (xs.drop 64) n
/-- The B columns of a list of weights in the order (k, c), as elements of B(k, c). -/
def columnsOf (ws : List (List Nat)) : List (List Nat) := (List.range 64).map fun c => ws.map fun r => r.getD c 0

/-! ### Operand checks (R141, R160) -/

/-- The range, alignment and bank-group checks of scratchpad operands, each over every operand before the next (R160). Of two operands in one bank group the
record names the second: the model's choice, as R356 does not say (assumption 23). -/
def mtxOperands (ops : List (Word × Nat)) (apart : Bool) : Except Flt Unit := do
  (match ops.find? fun (a, n) => decide (spadSize < a.toNat + n) with
    | some (a, _) => Except.error ⟨Code.scratchRange, a, 0⟩
    | none => .ok ())
  (match ops.find? fun (a, _) => decide (a.toNat % 64 ≠ 0) with
    | some (a, _) => Except.error ⟨Code.mtxAlign, a, 0⟩
    | none => .ok ())
  (match ops.find? fun (a, n) => decide (a.toNat / 2 ^ 18 ≠ (a.toNat + n - 1) / 2 ^ 18) with
    | some (a, _) => Except.error ⟨Code.bankGroup, a, 0⟩
    | none => .ok ())
  match apart, ops with
  | true, (a, _) :: (b, _) :: _ => require (bits a.toNat 18 2 != bits b.toNat 18 2) Code.bankGroup b
  | _, _ => .ok ()

/-- Rows of an operand, read on the MTX path: a write of another path that nothing orders before the read may be seen or not (R142, R228). -/
def State.spadRows (s : State) (a row n : Nat) : List Nat := (List.range n).map fun i => s.spadReadOn .mtx s.issue.core (a + i * row) row

/-- An M slot (R88, R143): ownership is checked whatever the predicate; the executing slot makes its checks and then waits while the unit is
occupied. -/
def mtxSlot (g : Guard) (acc : Fin 8) (s : State) (f : State → Except Flt State) : Out :=
  if !s.my.accMask.getLsbD acc.val then .next (s.slotFault ⟨Code.accNotOwned, 0, 0⟩)
  else runSlot g s fun s =>
    match f s with
    | .ok t => .ok (if s.me.mtx.isSome then s.wait .matrix else t)
    | .error e => .error e

/-- Errors that a matrix or transform operation meets on its operand bytes are reported (R195; assumption 63). -/
def State.reportPoison (s : State) (c : CoreId) (ws : List (Nat × Nat)) : State :=
  { s with out := s.out ++ (s.poison.filter fun u => ws.any fun w => overlaps u 8 (spadBase c + w.1) w.2).map fun u => .transferError c u }
/-- The operation starts; its occupancy begins in this cycle (R143). -/
def State.startMtx (s : State) (occ : Nat) (acc : Option (Fin 8)) (rows : List VWord) (f64 : Bool) (wins : List Window) : State :=
  (s.mapMe fun k => { k with mtx := some ⟨s.issue.ctx, k.cycle + occ, acc, rows, f64, none, none, wins, [], none, k.noteNo s.issue.core⟩, noted := k.noted + 1 }).reportPoison s.issue.core
    (wins.map fun w => (w.base, w.row * w.n))
def Core.accRows (k : Core) (a : Fin 8) : List VWord := k.acc[a].toList

/-! ### mma, mma.h, mma.sd -/

/-- The operation of an `mma` form whose B rows have been read: `wins` gives the windows of B from the elements of A that contribute. -/
def State.product (s : State) (f : MFmt) (acc : Fin 8) (a : Nat) (bs : List Nat) (scaled z : Bool) (wins : List Nat → List Window) : State :=
  let as := s.spadRows a f.rowBytes 64
  let start := if z then List.replicate 64 0 else s.me.accRows acc
  let zeros := zeroCount f s.my.fmtn as
  ((s.startMtx f.occupancy (some acc) (mmaRows f s.my.fmtn (if scaled then some (s.readSc acc 3) else none) as bs start) (f == .f64)
    (⟨.rows, a, f.rowBytes, 64⟩ :: wins (as.map (liveElems f s.my.fmtn)))).mapMe fun k => k.count 9 ((64 * f.depth - zeros) * f.bRows)).mapMe fun k => k.count 10 (zeros * f.bRows)

/-- R144, R145: both operands from scratchpad. -/
def execMma (g : Guard) (f : MFmt) (acc : Fin 8) (a : SReg) (b : Src) (sc z : Bool) (s : State) : Out :=
  mtxSlot g acc s fun s => do
    let f := f.resolve s.my.fmtn
    let x := s.opA a
    let y := s.opB b
    mtxOperands [(x, 64 * f.rowBytes), (y, f.bRows * f.rowBytes)] true
    .ok (s.product f acc x.toNat (s.spadRows y.toNat f.rowBytes f.bRows) sc z fun live => [⟨.cols f live, y.toNat, f.rowBytes, f.bRows⟩])

/-! #### Tile handles (R148 to R150, R284 to R286) -/

/-- The fields of a handle entry (R285). -/
structure Handle where
  stage : Nat
  fmt : Nat
  rows : Nat
  depth : Nat
  base : Nat
  gstride : Nat
  rstride : Nat
deriving DecidableEq, Repr

/-- A valid entry's fields (R286). -/
def handleOf (e : BitVec 256) : Option Handle :=
  let w (i : Nat) := bits e.toNat (64 * i) 64
  if bit (w 0) 63 && bits (w 0) 35 28 == 0 && bits (w 0) 29 3 == 0 && bits (w 0) 9 7 == 0 && bits (w 1) 55 9 == 0 && w 3 == 0 &&
      w 1 % 8 == 0 && bits (w 2) 32 32 % 8 == 0 && bits (w 2) 0 32 % 8 == 0 then
    some ⟨bits (w 0) 32 3, bits (w 0) 24 5, bits (w 0) 16 8, bits (w 0) 0 9, bits (w 1) 0 55, bits (w 2) 32 32, bits (w 2) 0 32⟩
  else none
/-- Row c of the tile (R286). -/
def Handle.rowAt (h : Handle) (c : Nat) : Nat := h.base + c / 8 * h.gstride + c % 8 * h.rstride

/-- The place of a handle index's entry: the translations of its first and last byte, `tr` being how the reader translates (R284); none is
HANDLE_INVALID, and HBM of the die that no stack maps faults as any load there does (R186). A table that is no multiple of 32, and an entry that reaches past
the virtual space, are read as they lie: assumption 95. -/
def State.handlePlace (s : State) (l : Option Launch) (d : DieId) (i : Nat) (tr : Nat → Except Flt Kept) : Except Flt (Option (Nat × Nat)) :=
  match l with
  | none => .ok none
  | some l =>
    if l.hcount ≤ i then .ok none
    else do
      let va := (l.htab.toNat + 32 * i) % 2 ^ 64
      let first ← tr va
      let last ← tr (va + 31)
      let good (k : Kept) (a : Nat) : Bool := k.cls == .hbm && s.homeDie (k.paOf a) == d
      let at_ (k : Kept) (a : Nat) : Except Flt Nat := do
        require (s.assigned (k.paOf a)) Code.paUnmapped (BitVec.ofNat 64 (k.paOf a))
        .ok (s.localPa (k.paOf a))
      if good first va && good last (va + 31) then do
        let p ← at_ first va
        let q ← at_ last (va + 31)
        .ok (some (p, q))
      else .ok none
/-- The addresses of the 32 bytes of an entry, from those of its first and last byte (R284). -/
def entryBytes (p : Nat × Nat) : List Nat :=
  let n := if p.2 = p.1 + 31 then 32 else 65536 - p.1 % 65536
  (List.range 32).map fun i => if i < n then p.1 + i else p.2 - (31 - i)
/-- A byte as a context loads it: from the mitten buffer of a task under a guard where that holds it (R207). -/
def State.byteFor (s : State) (c : CoreId) (x : CtxId) (pa : Nat) : Byte :=
  let b := if (s.ctx c x).grd then (s.core c).buffered x pa else (0, 0)
  if b.1.getLsbD 0 then b.2.setWidth 8 else Memory.get s.mem pa
/-- The 32 bytes of an entry as a context loads them (R207, R284): any value where one is poisoned (R195). -/
def State.handleEntry (s : State) (c : CoreId) (x : CtxId) (p : Nat × Nat) : BitVec 256 :=
  if (entryBytes p).any fun a => s.poison.any fun u => overlaps u 8 a 1 then Config.freeBits 256 s.tick (s.useNo 35)
  else BitVec.ofNat 256 (leNat ((entryBytes p).map (s.byteFor c x)))
/-- The poison that the load of an entry meets, as a load into no register (R195). Assumption 88. -/
def State.entryPoison (s : State) (p : Nat × Nat) : State :=
  match (entryBytes p).findSome? fun a => s.poisonAt a 1 with
  | some u => s.writeLoad .nothing 1024 0 (some u) []
  | none => s

/-- Eight bytes of a tile: from memory of this package, or from a peer or another package, whose bytes are any value to the model (R149); a peer's
completion with an error gives all-ones bytes and sets its window's err bit (R202, R303). -/
def State.stageUnit (s : State) (pa use : Nat) : List Byte × State :=
  match regionClass pa with
  | some .peer =>
    let t := { s with out := s.out ++ [.peerRead (s.peerEntry pa).port ((s.peerEntry pa).bus.toNat * 4096 + pa % 2 ^ 32) 8] }
    if Config.freeChoice s.tick use then (List.replicate 8 0xFF, t.peerError pa) else (leBytes 8 (Config.freeBits 64 s.tick use).toNat, t)
  | some .remote => (leBytes 8 (Config.freeBits 64 s.tick use).toNat, s.send (.remote (bits pa 41 10) (pa % 2 ^ 41) 8))
  | _ => (Memory.bytes s.mem pa 8, s)
/-- One row fetched for staging, unit by unit of 8 bytes since a row may cross pages: translated, sealed (R149). A row address past the virtual space is
taken as the translation takes it: assumption 64. -/
def State.stageRow (s : State) (d : DieId) (asid : BitVec 14) (use : Nat) : List Nat → Except Flt (List Byte × List Nat × State)
  | [] => .ok ([], [], s)
  | va :: t => do
    let (k, s1) ← s.translateFree d asid (va % 2 ^ 64) use
    require k.isSealed Code.handleUnsealed (BitVec.ofNat 64 va)
    require (s.assigned (k.paOf va)) Code.paUnmapped (BitVec.ofNat 64 (k.paOf va))
    let (u, s2) := s1.stageUnit (s.localPa (k.paOf va)) (400000 + va % 100000)
    let (b, ps, s3) ← s2.stageRow d asid use t
    .ok (u ++ b, va / 65536 :: ps, s3)
/-- All rows of a tile. -/
def State.stageRows (s : State) (d : DieId) (asid : BitVec 14) (use : Nat) (h : Handle) (rb : Nat) : List Nat → Except Flt (List (BitVec 1024) × List Nat × State)
  | [] => .ok ([], [], s)
  | c :: t => do
    let (b, ps, s1) ← s.stageRow d asid use ((List.range (rb / 8)).map fun i => h.rowAt c + 8 * i)
    let (r, qs, s2) ← s1.stageRows d asid use h rb t
    .ok (BitVec.ofNat 1024 (leNat b) :: r, ps ++ qs, s2)

/-- The form whose tile an entry describes, for lookahead: by its format code. -/
def formOfCode : Nat → Option MFmt
  | 0x0C => some .sx3 | 0x0D => some .sx5 | 0x0E => some .sx8 | 0x03 => some .bf16 | 0x02 => some .f16 | 0x01 => some .f32 | 0x00 => some .f64
  | 0x11 => some .q2 | 0x12 => some .q4 | 0x14 => some .q8 | _ => none

/-- A buffer holds the tile of an entry (R286). -/
def Staged.serves (b : Option Staged) (launch : Nat) (e : BitVec 256) : Option (List (BitVec 1024)) :=
  match b with
  | some t => if t.launch = launch ∧ t.entry = e ∧ t.done then some t.rows else none
  | none => none
def Core.buffer (k : Core) (i : Nat) : Option Staged := (k.staging.toList.getD i none)
def Core.setBuffer (k : Core) (i : Nat) (b : Option Staged) : Core := { k with staging := k.staging.setIfInBounds i b }

/-- The page of a handle index's entry is write-back (R192). -/
def State.entryKept (s : State) (i : Nat) : Bool :=
  match s.launchOf s.issue.core s.issue.ctx with
  | none => false
  | some l => match s.slotTranslate ((l.htab.toNat + 32 * i) % 2 ^ 64) (s.useNo 33) with | .ok k => k.policy == 0 | .error _ => false
/-- R148: B through a tile handle. The entry is read once the context's earlier accesses of the die's order are performed (R215, R284), and the core
freezes meanwhile as for a late reply. A buffer that does not hold the tile is filled while the core is frozen (R149). -/
def execMmaH (g : Guard) (f : MFmt) (acc : Fin 8) (a : SReg) (b : Src) (sc z : Bool) (s : State) : Out :=
  mtxSlot g acc s fun s => do
    let f := f.resolve s.my.fmtn
    let x := s.opA a
    let die := s.issue.core.die
    mtxOperands [(x, 64 * f.rowBytes)] false
    match ← s.handlePlace (s.launchOf s.issue.core s.issue.ctx) die (s.opB b).toNat (fun va => s.slotTranslate va (s.useNo 33)) with
    | none => .error ⟨Code.handleInvalid, 0, 0⟩
    | some p =>
      if s.me.waitsFor s { s.newAccess (.load false) 32 p.1 ⟨0, 0, 0, 0, .hbm, false, 0, false⟩ with dieHomed := true } then .ok (s.wait .reply)
      else
        let e := s.handleEntry s.issue.core s.issue.ctx p
        match handleOf e with
        | none => .error ⟨Code.handleInvalid, 0, 0⟩
        | some h =>
          require (h.fmt == f.entryCode && h.rows == f.bRows && h.depth == f.depth) Code.handleFormat 0
          let (pts, d) := (s.die die).stampLoad (lineOf p.1) s.my.pts.toNat s.my.lease.toNat (s.entryKept (s.opB b).toNat)
          let t := ((s.entryPoison p).setDie die d).mapMy fun c => { c with pts := BitVec.ofNat 64 pts }
          let l := s.my.launch.getD 0
          match Staged.serves (t.me.buffer h.stage) l e with
          | some rows => .ok ((t.product f acc x.toNat (rows.map BitVec.toNat) sc z fun _ => []).mapMe fun k =>
              { k with mtx := k.mtx.map fun m => { m with buf := some h.stage } })
          | none =>
            let (rows, pages, u) ← t.stageRows die s.asid (s.useNo 34) h f.rowBytes (List.range f.bRows)
            .ok ((u.mapMe fun k => k.setBuffer h.stage (some ⟨l, e, pages, rows, false⟩)).wait .staging)

/-- STAGING_COMPLETE: the fetch of a buffer has completed (R149). -/
def execStagingComplete (c : CoreId) (b : Fin 8) (s : State) : Out :=
  .next (s.mapCore c fun k => k.setBuffer b.val ((k.buffer b.val).map fun t => { t with done := true }))

/-- The tile that the M slot of a bundle at a word would use, for lookahead: its handle index (R149). -/
def Core.lookaheadIndex (k : Core) (x : CtxId) (w : Nat) : Option Nat :=
  if !k.marked w then none else
  match decodeCrown (k.iword w) with
  | .error _ => none
  | .ok c =>
    match (c.kinds.zipIdx).find? fun (kd, _) => kd == .m with
    | none => none
    | some (_, n) =>
      match decodeWord .m (k.iword (w + 1 + n)).toNat with
      | .ok (.mmaH _ _ _ _ (.reg r) _ _) => some (if r = 0 then 0 else (k.ctx x).s[r].toNat)
      | .ok (.mmaH _ _ _ _ (.lit b) _ _) =>
        let at_ := w + 1 + c.kinds.length + b.idx.val
        some (brimValue (k.iword at_) (k.iword (at_ + 1)) b.shape).toNat
      | _ => none

/-- The bundles that follow a word, in address order, an active loop's end going on at its start (R149). -/
def Core.following (k : Core) (l : LoopState) : Nat → Nat → List Nat
  | 0, _ => []
  | n + 1, w =>
    let next := if l.count ≠ 0 ∧ l.endw.toNat = w then l.startw.toNat else w + k.bundleLen w
    next :: k.following l n next
/-- The buffer serves the operation in progress (R149). -/
def Core.bufferBusy (k : Core) (i : Nat) : Bool := k.mtx.any fun m => m.buf == some i
/-- LOOKAHEAD_STAGING: the operand fetcher begins staging the tile that an `mma.h` among the next 64 bundles names; a fault drops the staging, and a
buffer that the operation in progress uses is not refilled (R149). -/
def execLookaheadStaging (c : CoreId) (w : BitVec 16) (s : State) : Out :=
  match (s.core c).running with
  | none => .next s
  | some x =>
    let y := s.ctx c x
    let l := s.launchOf c x
    if !((s.core c).following y.loop 64 (y.pc.toNat / 4)).contains w.toNat then .next s else
    match (s.core c).lookaheadIndex x w.toNat with
    | none => .next s
    | some i =>
      match s.handlePlace l c.die i (fun va => (s.translateFree c.die ((l.map (·.asid)).getD 0) va 1).map (·.1)) with
      | .ok (some p) =>
        let e := s.handleEntry c x p
        match handleOf e with
        | none => .next s
        | some h =>
          match formOfCode h.fmt with
          | none => .next s
          | some f =>
            if h.rows ≠ f.bRows ∨ h.depth ≠ f.depth ∨ (s.core c).bufferBusy h.stage ∨ (Staged.serves ((s.core c).buffer h.stage) (y.launch.getD 0) e).isSome
            then .next s
            else
              match s.stageRows c.die ((l.map (·.asid)).getD 0) 2 h f.rowBytes (List.range f.bRows) with
              | .ok (rows, pages, u) => .next (u.mapCore c fun k => k.setBuffer h.stage (some ⟨y.launch.getD 0, e, pages, rows, false⟩))
              | .error _ => .next s
      | _ => .next s

/-! #### Seeded forms -/

/-- The checks of a slot that names a record beside other operands (R141, R152, R160). -/
def State.seedChecks (s : State) (ops : List (Word × Nat)) (d : Word) (apart : Bool) (want : Option Nat) : Except Flt SeedDesc := do
  let r := s.seedDesc s.issue.core d.toNat
  mtxOperands (ops ++ [(d, seedExtent r.header)]) apart
  require (r.ok want) Code.seedDesc 0
  .ok r

/-- R154. -/
def execMmaSd (g : Guard) (half : Bool) (acc : Fin 8) (a : SReg) (b : Src) (z : Bool) (s : State) : Out :=
  mtxSlot g acc s fun s => do
    let x := s.opA a
    let y := s.opB b
    let r ← s.seedChecks [(x, 8192)] y true (some (if half then 2 else 3))
    let cols := columnsOf (rowsOf r.weights 64)
    .ok (s.product (if half then .f16 else .bf16) acc x.toNat (cols.map (joinW 16)) false z
      fun live => [⟨.coefs live, y.toNat + 64, 128, seedTerms r.header⟩])

/-- R155. -/
def execSdgen (g : Guard) (acc : Fin 8) (a : SReg) (b : Src) (isBasis : Bool) (s : State) : Out :=
  mtxSlot g acc s fun s => do
    let y := s.opB b
    let r ← s.seedChecks [] y false none
    let one : Bool → Nat := fun g => if g then 0xBF800000 else 0x3F800000
    let xs := if isBasis then (basis r.seed ((s.opA a).toNat % 8)).map one else r.weights.map (fpCvt (seedFmt r.header) fp32 .rn)
    .ok (s.startMtx 64 (some acc) ((rowsOf xs 64).map (vOfElems 32)) false (if isBasis then [] else [⟨.coefs (.replicate 64 1), y.toNat + 64, 128, seedTerms r.header⟩]))

/-- The correlation of one column of the target with a basis (R156): NaN where the column holds an infinity or a NaN. -/
def corrColumn (col : List Fp) (g : List Bool) : Fp :=
  if col.any fun x => x.isNan || x.isInf then .nan
  else
    let s := (col.zip g).foldl (fun t (x, n) => t.add (if n then x.neg else x)) Fp.zero
    if s.isZero then Fp.zero else s
/-- The basis by columns. -/
def basisColumns (s j : Nat) : List (List Bool) := let r := rowsOf (basis s j) 64; (List.range 64).map fun c => r.map fun x => x.getD c false
def corrAll (t : List (List Fp)) (s j : Nat) : List Fp := (t.zip (basisColumns s j)).map fun (c, g) => corrColumn c g
/-- The score: the sum of the squares with one rounding (R156). -/
def corrScore (cs : List Fp) : Nat := (cs.foldl (fun t x => t.add (x.mul x)) Fp.zero).round fp64 .rn
/-- The search over the seeds s0 + i (R156): the best seed, its score when one scored, its correlations. -/
def sdscanGo (t : List (List Fp)) (s0 j : Nat) : List Nat → Nat × Option Nat × List Fp → Nat × Option Nat × List Fp
  | [], best => best
  | i :: rest, best =>
    let sd := (s0 + i) % 2 ^ 64
    let cs := corrAll t sd j
    let sc := corrScore cs
    let better := !(Fp.ofBits fp64 sc).isNan && (match best.2.1 with | none => true | some b => decide (b < sc))
    sdscanGo t s0 j rest (if better then (sd, some sc, cs) else best)

/-- R156. -/
def execSdscan (g : Guard) (acc : Fin 8) (a b : SReg) (half : Bool) (s : State) : Out :=
  mtxSlot g acc s fun s => do
    let x := s.opA a
    mtxOperands [(x, 8192)] false
    let b1 : SReg := ⟨(b.val + 1) % 64, Nat.mod_lt _ (by decide)⟩
    let s0 := (s.readS b 1).toNat
    let w := (s.readS b1 2).toNat
    let cnt := max 1 (min 64 (w % 2 ^ 32))
    let j := bits w 32 3
    let f : MFmt := if half then .f16 else .bf16
    let t := (s.spadRows x.toNat 128 64).map f.fpRow
    let best := sdscanGo t s0 j (List.range cnt) (s0, none, corrAll t s0 j)
    let row0 := vOfElems 32 (best.2.2.map fun v => (v.scale (-6)).round fp32 .rn)
    let u := (s.startMtx 4152 (some acc) (row0 :: List.replicate 63 0) false [⟨.scan (cnt == 1), x.toNat, 128, 64⟩]).mapMe fun k =>
      { k with mtx := k.mtx.map fun m => { m with pair := some b } }
    .ok ((u.writeS b 4160 (BitVec.ofNat 64 best.1)).writeS b1 4160 (BitVec.ofNat 64 (best.2.1.getD fp64.nanBits)))

/-! ### Accumulator moves (R158, R159) -/

/-- R158. -/
def execMzero (g : Guard) (acc : Fin 8) (s : State) : Out := mtxSlot g acc s fun s => .ok (s.startMtx 1 (some acc) (List.replicate 64 0) false [])

/-- R159. -/
def execMld (g : Guard) (acc : Fin 8) (a : SReg) (f : MvFmt) (s : State) : Out :=
  mtxSlot g acc s fun s => do
    let x := s.opA a
    mtxOperands [(x, 64 * f.rowBytes)] false
    .ok (s.startMtx 64 (some acc) ((s.spadRows x.toNat f.rowBytes 64).map f.take) (f == .f32w) [⟨.elems f, x.toNat, f.rowBytes, 64⟩])
/-- R159: the converted rows reach the scratchpad when the operation completes. -/
def execMst (g : Guard) (acc : Fin 8) (a : SReg) (f : MvFmt) (s : State) : Out :=
  mtxSlot g acc s fun s => do
    let x := s.opA a
    mtxOperands [(x, 64 * f.rowBytes)] false
    let t := s.startMtx 64 none ((s.me.accRows acc).map fun r => BitVec.ofNat 2048 (f.put r)) false []
    .ok (t.mapMe fun k => { k with mtx := k.mtx.map fun m => { m with store := some (x.toNat, f.rowBytes) } })

/-! ### Completion (R142, R143) -/

/-- Result element (i, c) depends on byte `p` of a window (R142). -/
def Window.bears (w : Window) (p i c : Nat) : Bool :=
  if p < w.base ∨ w.base + w.row * w.n ≤ p then false
  else
    let o := p - w.base
    match w.kind with
    | .rows => o / w.row == i
    | .cols f live => o / w.row == c && (List.range f.depth).any fun k => (live.getD i 0).testBit k && f.bears (o % w.row) k
    | .coefs live => o % w.row / 2 == c && live.getD i 0 != 0
    | .scan one => i == 0 && (!one || o / w.row == c)
    | .elems f => o / w.row == i && f.bears (o % w.row) c
/-- Result element (i, c) depends on a byte that another path has written (R142). -/
def MtxOp.isOpen (m : MtxOp) (i c : Nat) : Bool :=
  m.dirty.any fun d => m.wins.any fun w => (List.range d.2).any fun k => w.bears (d.1 + k) i c
/-- Row i of the result, its open elements replaced by free values (R142; assumption 18). -/
def MtxOp.finish (m : MtxOp) (tick i : Nat) (r : VWord) : VWord :=
  if m.dirty = [] ∨ m.wins = [] then r
  else
    let w := if m.f64 then 64 else 32
    vOfElems w ((elems r w).zipIdx.map fun (x, c) => if m.isOpen i c then (Config.freeBits w tick (1000 + 64 * i + c)).toNat else x)

/-- The open scalars of an `sdscan` whose target was written (R142, R156): the score, and the seed where there were several to choose from. -/
def Core.freePair (k : Core) (m : MtxOp) (tick : Nat) : Core :=
  match m.pair with
  | none => k
  | some b =>
    if (List.range 64).any (m.isOpen 0) then
      let several := m.wins.any fun w => w.kind == .scan false
      { k with inflight := k.inflight.map fun e =>
        if e.ctx = m.ctx ∧ (several ∧ e.dest = .s b ∨ e.dest = .s ⟨(b.val + 1) % 64, Nat.mod_lt _ (by decide)⟩) ∧ e.issued + 4152 = m.ends
        then { e with val := some ((Config.freeBits 64 tick (900 + (if e.dest = .s b then 0 else 1))).setWidth 2048) } else e }
    else k

/-- The rows of an `mst` have reached the scratchpad: a command that was committed after it, with nothing to order the two, may still find what stood there
(R228, R428). `s` is the state before. -/
def State.storedBehind (t s : State) (c : CoreId) : State :=
  let was := (s.core c).storing c
  let late (q : Command) : Bool := q.behind.any was.contains
  let was_ (q : Command) : Command := { q with behind := q.behind.map fun r => if was.contains r then { r with old := Memory.bytes s.mem r.a r.old.length, early := false } else r }
  { t.mapCore c fun k => { k with copyq := (k.copyq.zip (s.core c).copyq).map fun p => if late p.2 then was_ p.2 else p.1 } with
    watch := (t.watch.zip s.watch).map fun p => if p.2.core = c ∧ (s.core c).copyq.any (fun q => q.tag == p.2.tag && late q) then p.2 else p.1 }
/-- The operation in progress completes: its accumulator or its scratchpad rows hold the result (R143). -/
def State.finishMtx (s : State) (c : CoreId) : State :=
  match (s.core c).mtx with
  | none => s
  | some m =>
    let rows := m.rows.zipIdx.map fun (r, i) => m.finish s.tick i r
    let t := s.mapCore c fun k => { k.freePair m s.tick with mtx := none }
    match m.acc, m.store with
    | some a, _ => t.mapCore c fun k => { k with acc := k.acc.set a.val (Vector.ofFn fun i => rows.getD i.val 0) a.isLt }
    | none, some (p, n) => (t.spadWriteOn { path := .mtx, ctx := m.ctx, no := some m.no } c p (rows.flatMap fun r => leBytes n r.toNat)).storedBehind s c
    | none, none => t

/-- MATRIX_OP_COMPLETE: at the end of its occupancy, or earlier by skipping (R143, R146); a frozen core's unit stands still (R160). -/
def execMatrixOpComplete (c : CoreId) (s : State) : Out := .next (if (s.core c).halted then s else s.finishMtx c)

end Sys2Proof.Machine
end

