-- ==== Sys2Proof/Machine/Transform.lean ====
section
/-!
DEFINITION. Sys2Proof/Machine/Transform.lean: the transform unit (R165 to R180): `xft.go`, the butterflies and twiddles, and the steps of an operation.
-/
namespace Sys2Proof.Machine

/-! ### Complex arithmetic on encodings (R170, R171, R174) -/

/-- A complex number: encodings of its real and imaginary parts. -/
abbrev Cx := Nat × Nat

def cAdd (f : FpFmt) (a b : Cx) : Cx := (fpAdd f a.1 b.1, fpAdd f a.2 b.2)
def cSub (f : FpFmt) (a b : Cx) : Cx := (fpSub f a.1 b.1, fpSub f a.2 b.2)
/-- t - i u and t + i u, one rounding per component (R171). -/
def cSubI (f : FpFmt) (t u : Cx) : Cx := (fpAdd f t.1 u.2, fpSub f t.2 u.1)
def cAddI (f : FpFmt) (t u : Cx) : Cx := (fpSub f t.1 u.2, fpAdd f t.2 u.1)
/-- x + c y with one rounding; `neg` subtracts the product (R172, R173). -/
def fused (f : FpFmt) (x c y : Nat) (neg : Bool) : Nat :=
  let p := (Fp.ofBits f c).mul (Fp.ofBits f y)
  ((Fp.ofBits f x).add (if neg then p.neg else p)).round f .rn
def cFused (f : FpFmt) (x : Cx) (c : Nat) (y : Cx) (neg : Bool) : Cx := (fused f x.1 c y.1 neg, fused f x.2 c y.2 neg)
/-- A real constant times a complex operand, rounded per component (R173). -/
def cScale (f : FpFmt) (c : Nat) (y : Cx) : Cx := (fpMul f c y.1, fpMul f c y.2)
/-- The product as `vcmul` forms it (R125). -/
def cMul (f : FpFmt) (a b : Cx) : Cx :=
  let ar := Fp.ofBits f a.1
  let ai := Fp.ofBits f a.2
  let br := Fp.ofBits f b.1
  let bi := Fp.ofBits f b.2
  (((ar.mul br).sub (ai.mul bi)).round f .rn, ((ar.mul bi).add (ai.mul br)).round f .rn)

/-- W(t) for length n (R170). -/
def twiddleOf (f : FpFmt) (inv : Bool) (n t : Nat) : Cx :=
  let si := sinPiRat (2 * t) n
  ((cosPiRat (2 * t) n).round f .rn, (if si.isZero then Fp.zero else if inv then si else si.neg).round f .rn)
/-- Twiddle(v, t) (R170). -/
def twiddle (f : FpFmt) (inv : Bool) (n : Nat) (v : Cx) (t : Nat) : Cx := if t = 0 then v else cMul f v (twiddleOf f inv n t)

/-- The two of a conjugate pair in the order of the direction (R171 to R173). -/
def pairOf (inv : Bool) (f g : Cx) : Cx × Cx := if inv then (g, f) else (f, g)
/-- Butterfly_r (R171 to R173). -/
def butterfly (f : FpFmt) (inv : Bool) (a : List Cx) : List Cx :=
  let at_ (i : Nat) : Cx := a.getD i (0, 0)
  match a.length with
  | 2 => [cAdd f (at_ 0) (at_ 1), cSub f (at_ 0) (at_ 1)]
  | 3 =>
    let sm := cAdd f (at_ 1) (at_ 2)
    let d := cSub f (at_ 1) (at_ 2)
    let half := (Fp.fin false 1 (-1)).round f .rn
    let c := (sinPiRat 1 3).round f .rn
    let h := cFused f (at_ 0) half sm true
    let u : Cx := (fused f h.1 c d.2 false, fused f h.2 c d.1 true)
    let g : Cx := (fused f h.1 c d.2 true, fused f h.2 c d.1 false)
    let (b1, b2) := pairOf inv u g
    [cAdd f (at_ 0) sm, b1, b2]
  | 4 =>
    let t0 := cAdd f (at_ 0) (at_ 2)
    let t1 := cSub f (at_ 0) (at_ 2)
    let t2 := cAdd f (at_ 1) (at_ 3)
    let t3 := cSub f (at_ 1) (at_ 3)
    let (b1, b3) := pairOf inv (cSubI f t1 t3) (cAddI f t1 t3)
    [cAdd f t0 t2, b1, cSub f t0 t2, b3]
  | 5 =>
    let p1 := cAdd f (at_ 1) (at_ 4)
    let q1 := cSub f (at_ 1) (at_ 4)
    let p2 := cAdd f (at_ 2) (at_ 3)
    let q2 := cSub f (at_ 2) (at_ 3)
    let c1 := (cosPiRat 2 5).round f .rn
    let c2 := (cosPiRat 4 5).round f .rn
    let s1 := (sinPiRat 2 5).round f .rn
    let s2 := (sinPiRat 4 5).round f .rn
    let a1 := cFused f (cFused f (at_ 0) c1 p1 false) c2 p2 false
    let a2 := cFused f (cFused f (at_ 0) c2 p1 false) c1 p2 false
    let b1 := cFused f (cScale f s1 q1) s2 q2 false
    let b2 := cFused f (cScale f s2 q1) s1 q2 true
    let (x1, x4) := pairOf inv (cSubI f a1 b1) (cAddI f a1 b1)
    let (x2, x3) := pairOf inv (cSubI f a2 b2) (cAddI f a2 b2)
    [cAdd f (cAdd f (at_ 0) p1) p2, x1, x2, x3, x4]
  | _ => a

/-- One stage (R169): `m` = n / r. -/
def stage_ (f : FpFmt) (inv : Bool) (total r m gap done : Nat) (cur : Array Cx) : Array Cx :=
  (Array.range total).map fun j =>
    let q := j % gap
    let u := j / gap % r
    let p := j / (gap * r)
    let a := (List.range r).map fun t => cur.getD (q + gap * (p + t * m)) (0, 0)
    twiddle f inv total ((butterfly f inv a).getD u (0, 0)) (p * u * done % total)
/-- The stages in order (R169); `n` is the length still to split, `gap` the product of the radices done. -/
def stages (f : FpFmt) (inv : Bool) (total : Nat) : List Nat → Nat → Nat → Array Cx → Array Cx
  | [], _, _, cur => cur
  | r :: rs, n, gap, cur => stages f inv total rs (n / r) (gap * r) (stage_ f inv total r (n / r) gap gap cur)

/-! ### One transform (R175, R176, R179) -/

def planFp (p : Vector Word 16) : FpFmt := if planZ p = 8 then fp64 else fp32
/-- Transform b of the set applied to its input, read on the XFT path: a write that nothing ordered before the start may be seen or not (R179, R228). -/
def State.runTransform (s : State) (c : CoreId) (p : Vector Word 16) (behind : List Fresh) (b : Nat) : Array Cx :=
  let z := planZ p
  let i := planIn p
  let rd (a : Nat) := s.spadReadPast behind .xft c a z
  let x := (Array.range (planN p)).map fun k => ((rd (i.at b k), rd (i.at b k + i.im)) : Cx)
  stages (planFp p) (bit (setWord p 0) 1) (planN p) (planRadices p) (planN p) 1 x

/-- In place (R176). -/
def planInPlace (p : Vector Word 16) : Bool := decide (planIn p = planOut p)
/-- Two output components of a side overlap (R176): their places differ by multiples of the strides, and by the distance of the imaginary part. -/
def Side.selfOverlap (d : Side) (n b z : Nat) : Bool :=
  (List.range (2 * b - 1)).any fun i => (List.range (2 * n - 1)).any fun k =>
    let di : Int := (i : Int) - (b - 1 : Nat)
    let dk : Int := (k : Int) - (n - 1 : Nat)
    let far := di * d.bs + dk * d.es
    (!(di == 0 && dk == 0) && decide (far.natAbs < z)) || decide ((far + d.im).natAbs < z)
/-- An output component overlaps an input component, or another output component, without the operation being in place (R176). -/
def planOverlaps (p : Vector Word 16) : Bool :=
  let n := planN p
  let b := planB p
  let z := planZ p
  let o := planOut p
  let i := planIn p
  o.selfOverlap n b z ||
    (!planInPlace p && decide (o.base < i.end_ n b z) && decide (i.base < o.end_ n b z) &&
      (List.range b).any fun j => (List.range n).any fun k => (List.range z).any fun t =>
        i.holds n b z (o.at j k + t) || i.holds n b z (o.at j k + o.im + t))

/-- The unit writes: its later operations find nothing older there (R179). -/
def Core.passXft (k : Core) (pa n : Nat) : Core :=
  let past (l : List Fresh) : List Fresh := l.flatMap fun x => x.cut pa n (1#6 <<< Path.xft.bit)
  { k with recent := past k.recent, xftBehind := past k.xftBehind }
/-- Bytes written by the unit: other engines' windows see a foreign write, its own does not. -/
def State.xftWrite (s : State) (c : CoreId) (a : Nat) (b : List Byte) : State :=
  (s.spadWrite c a b).mapCore c fun k => { k.passXft (spadBase c + a) b.length with xft := (s.core c).xft }
/-- The output elements of transform b written. -/
def State.putTransform (s : State) (c : CoreId) (p : Vector Word 16) (b : Nat) (xs : List Cx) : State :=
  let z := planZ p
  let o := planOut p
  xs.zipIdx.foldl (fun t (x, k) => (t.xftWrite c (o.at b k) (leBytes z x.1)).xftWrite c (o.at b k + o.im) (leBytes z x.2)) s
/-- Output elements with any value of the format (R176, R179; assumptions 18, 20). -/
def openElems (p : Vector Word 16) (tick b : Nat) : List Cx :=
  (List.range (planN p)).map fun k =>
    ((Config.freeBits (8 * planZ p) tick (2 * (b * planN p + k))).toNat, (Config.freeBits (8 * planZ p) tick (2 * (b * planN p + k) + 1)).toNat)

/-! ### Operations -/

/-- Word 15 of the active set (R165). -/
def statWord (act : Bool) (done : Nat) : Word := BitVec.ofNat 64 ((if act then 2 ^ 63 else 0) + done % 2 ^ 17)
def EngineRegs.setStat (r : EngineRegs) (w : Word) : EngineRegs := { r with active := r.active.set 15 w }

/-- A shadow set becomes the active set; the old active set becomes a zeroed shadow set, which no context claims (R90, R91). -/
def EngineRegs.doSwap (r : EngineRegs) : EngineRegs := ⟨r.shadow, .replicate 16 0, none, none⟩

/-- The swap of engine 1 and the start of the operation that a context requested (R167), with the writes that nothing ordered before its `xft.go` (R179). -/
def Core.startXft (k : Core) (x : CtxId) (behind : List Fresh) : Core :=
  { k with eng1 := k.eng1.doSwap.setStat (statWord true 0), xft := some ⟨x, k.cycle, 0, [], behind⟩, xftBehind := [] }

/-- The errors that a transform meets in its input are reported (R195; assumption 63). -/
def State.reportInput (s : State) (c : CoreId) (p : Vector Word 16) (b : Nat) : State :=
  { s with out := s.out ++ (s.poison.filter fun u => (List.range 8).any fun i =>
      decide (spadBase c ≤ u + i) && (planIn p).holdsIn (planN p) (planZ p) b (u + i - spadBase c)).map fun u => .transferError c u }
/-- The next transform of the batch is done (R175). -/
def State.transformStep (s : State) (c : CoreId) : State :=
  match (s.core c).xft with
  | none => s
  | some x =>
    let p := (s.core c).eng1.active
    if planB p ≤ x.done then s
    else
      let t := (s.reportInput c p x.done).putTransform c p x.done (s.runTransform c p x.behind x.done).toList
      t.mapCore c fun k => { (k.count 11 ((planRadices p).map fun r => planN p / r).sum) with
        xft := some { x with done := x.done + 1 }, eng1 := k.eng1.setStat (statWord true (x.done + 1)) }
/-- The transforms still to do. -/
def State.transformSteps (s : State) (c : CoreId) : Nat → State
  | 0 => s
  | n + 1 => (s.transformStep c).transformSteps c n

/-- What the completed operation leaves open: every output where outputs overlap, and the outputs of each transform whose input another path wrote
meanwhile (R176, R179). -/
def State.openOutputs (s : State) (c : CoreId) (p : Vector Word 16) (x : XftOp) : State :=
  let all := planOverlaps p
  (List.range (planB p)).foldl (fun t b =>
    if all || x.dirty.any fun d => (List.range d.2).any fun i => (planIn p).holdsIn (planN p) (planZ p) b (d.1 + i)
    then t.putTransform c p b (openElems p s.tick b) else t) s

/-- Ranges in order, merged where one follows another. -/
def mergeRanges : List (Nat × Nat) → List (Nat × Nat)
  | [] => []
  | (a, n) :: t =>
    match mergeRanges t with
    | (b, m) :: r => if b = a + n then (a, n + m) :: r else (a, n) :: (b, m) :: r
    | [] => [(a, n)]
/-- The output bytes of a plan. -/
def planRanges (p : Vector Word 16) : List (Nat × Nat) :=
  let z := planZ p
  let o := planOut p
  mergeRanges ((List.range (planB p)).flatMap fun b => (List.range (planN p)).flatMap fun k => [(o.at b k, z), (o.at b k + o.im, z)])
/-- The outputs of an ended operation: without a barrier wait or a fence, a read of another path returns any value (R179). -/
def State.noteOutputs (s : State) (c : CoreId) (x : CtxId) (p : Vector Word 16) : State :=
  let bar := setWord p 8
  let bars := if bit bar 63 then [bits bar 0 21] else []
  (planRanges p).foldl (fun t (a, n) => t.mapCore c fun k => k.noteFresh
    ⟨.xft, x, s.ownerOf c x .xft, k.noteNo c, s.tick, spadBase c + a, .replicate n 0, Path.xft.others, ⟨toBars bars, none, none⟩, [], true, false⟩) s

/-- The operation completes: act falls, one arrival is made, and a pending swap takes effect (R178). -/
def State.finishXft (s : State) (c : CoreId) : State :=
  match (s.core c).xft with
  | none => s
  | some x0 =>
    let p := (s.core c).eng1.active
    let s := s.transformSteps c (planB p - x0.done)
    let s := s.openOutputs c p (((s.core c).xft).getD x0)
    let s := (s.noteOutputs c x0.ctx p).mapCore c fun k => { k with xft := none, eng1 := k.eng1.setStat (statWord false (planB p)) }
    let bar := setWord p 8
    let s := if bit bar 63 then s.updateBarrier c (s.ctx c x0.ctx).launch (bits bar 0 21) .arrive 1 else s
    match (s.core c).eng1.swap with
    | none => s.wake c
    | some y => (s.mapCore c fun k => k.startXft y k.xftBehind).wake c

/-- XFT_TRANSFORM_DONE (R175); a frozen core's unit stands still (R177, R180). -/
def execXftTransformDone (c : CoreId) (s : State) : Out := .next (if (s.core c).halted then s else s.transformStep c)
/-- XFT_COMPLETE (R178); a frozen core's unit stands still (R177, R180). -/
def execXftComplete (c : CoreId) (s : State) : Out := .next (if (s.core c).halted then s else s.finishXft c)

/-- `xft.go`, and `ego e1` (R167, R168): `i` and `o` replace IBASE and OBASE. -/
def State.xftStart (s : State) (i o : Option Word) : Except Flt State :=
  let r := s.me.eng1
  if !r.freeFor s.issue.ctx then .ok (s.block (.shadow .xft))
  else do
    let p := r.shadow
    let p := match i with | some v => p.set 2 v | none => p
    let p := match o with | some v => p.set 3 v | none => p
    require (planOk p) Code.xftParam 0
    match planOutside p with
    | some a => Except.error ⟨Code.scratchRange, BitVec.ofNat 64 a, 0⟩
    | none =>
    let behind := s.me.openFor s.issue.core .xft
    let s := s.mapMe fun k => { k with eng1 := { k.eng1 with shadow := p, claim := some s.issue.ctx, swap := some s.issue.ctx } }
    .ok (s.mapMe fun k => if k.xft.isSome then { k with xftBehind := behind } else k.startXft s.issue.ctx behind)
/-- R166, R167. -/
def execXftGo (g : Guard) (i : Option SReg) (o : Option Src) (s : State) : Out :=
  runSlot g s fun s => s.xftStart (i.map s.opA) (o.map s.opB)

end Sys2Proof.Machine
end

