-- ==== Sys2Proof/Machine/Engines.lean ====
section
/-!
DEFINITION. Sys2Proof/Machine/Engines.lean: the engine register commands (R237 to R241), the copy engine and the helper (R242 to R255), random bits in
memory (R268, R269), and the pattern table (R299).
-/
namespace Sys2Proof.Machine

/-! ### Engine registers -/

/-- Error codes of STAT.err (R243). -/
def errUnmapped : Nat := 0x01
def errRefused : Nat := 0x02
def errSealed : Nat := 0x03
def errPoison : Nat := 0x04
def errPageFault : Nat := 0x05
def errHelperFault : Nat := 0x06
def errHelperLength : Nat := 0x07
def errPeerAbsent : Nat := 0x08
def errKilled : Nat := 0x09
def errMalformed : Nat := 0x0A

/-- STAT of engines 0 and 2 (R243): the error code is kept in word 15 of the active set, the rest follows the copy queue. -/
def Core.queueStat (k : Core) (e : Eng) : Word :=
  let isX (q : Command) := q.eng == .xpose
  let cnt := match e with | .xpose => (k.copyq.filter isX).length | _ => k.copyq.length
  let act := match e with | .xpose => k.copyq.any isX | _ => k.copyq.any fun q => !isX q
  BitVec.ofNat 64 ((if act then 2 ^ 63 else 0) + bits (setWord (k.eng e).active 15) 40 8 * 2 ^ 40 + cnt)
/-- Word w of a set (R165, R240). -/
def Core.engWord (k : Core) (e : Eng) (w : Fin 16) (shadow : Bool) : Word :=
  if shadow then (if w = 15 then 0 else (k.eng e).shadow[w])
  else if w = 15 ∧ e ≠ .xft then k.queueStat e else (k.eng e).active[w]
/-- A transfer error is recorded in STAT.err (R243). -/
def Core.setErr (k : Core) (e : Eng) (code : Nat) : Core := k.setEng e ((k.eng e).setStat (BitVec.ofNat 64 (code * 2 ^ 40)))

/-- A shadow word is written; word 15 is ignored (R237). -/
def EngineRegs.putShadow (r : EngineRegs) (w : Nat) (v : Word) : EngineRegs := if w = 15 then r else { r with shadow := r.shadow.setIfInBounds w v }
/-- Claim, or block (R238). -/
def State.withShadow (s : State) (e : Eng) (f : EngineRegs → EngineRegs) : State :=
  if !(s.me.eng e).freeFor s.issue.ctx then s.block (.shadow e)
  else s.mapMe fun k => k.setEng e (f { k.eng e with claim := some s.issue.ctx })

/-- R238, single form. -/
def execEwr (g : Guard) (e : Eng) (w : Fin 16) (b : Src) (s : State) : Out := plainSlot g s fun s => s.withShadow e (·.putShadow w.val (s.opB b))
/-- R238, block form. -/
def execEwrBlk (g : Guard) (e : Eng) (w : Fin 16) (a : SReg) (b : Src) (s : State) : Out :=
  runSlot g s fun s => do
    let ad := s.opA a + s.opB b
    require (decide (ad.toNat % 8 = 0)) Code.memAlign ad
    require (decide (ad.toNat + 8 * (16 - w.val) ≤ spadSize)) Code.scratchRange ad
    let vs := (List.range (16 - w.val)).map fun i => BitVec.ofNat 64 (s.spadReadOn .core s.issue.core (ad.toNat + 8 * i) 8)
    let t := s.withShadow e fun r => vs.zipIdx.foldl (fun r (v, i) => r.putShadow (w.val + i) v) r
    .ok (if !(s.me.eng e).freeFor s.issue.ctx then t
      else (t.loadPoison 4 [(ad.toNat, 8 * (16 - w.val))]).touch ((List.range (16 - w.val)).map fun i => ad.toNat + 8 * i))
/-- R239: engine 1 starts a transform; engines 0 and 2 swap at commit, and STAT stays with the active set (R243). -/
def execEgo (g : Guard) (e : Eng) (s : State) : Out :=
  runSlot g s fun s =>
    match e with
    | .xft => s.xftStart none none
    | e => .ok (s.withShadow e fun r => r.doSwap.setStat (r.active[15]))
/-- R240; STAT read with act = 0 observes the engine's transfers complete (R227). -/
def execErd (g : Guard) (d : SReg) (e : Eng) (w : Fin 16) (shadow : Bool) (s : State) : Out :=
  plainSlot g s fun s =>
    let t := s.writeS d 4 (s.me.engWord e w shadow)
    if w = 15 ∧ !shadow ∧ !(s.me.engWord e w shadow).getLsbD 63 then t.mapMe fun k => k.observeIdle s.issue.ctx s.tick e else t

/-! ### Copy templates (R242, R245, R246) -/

/-- The fields of a copy template. -/
structure Template where
  fmt : Nat
  dec : Bool
  dsp : Bool
  ssp : Bool
  mode : Nat
  nr : Nat
  sstr : Nat
  dstr : Nat
  p : Nat
  fb : Nat
  ben : Bool
  bar : Nat
  olen : Nat
  routine : Nat
  arg : Word
deriving DecidableEq, Repr
def templateOf (t : Vector Word 16) : Template :=
  let w := setWord t
  ⟨bits (w 0) 11 5, bit (w 0) 10, bit (w 0) 9, bit (w 0) 8, bits (w 0) 0 3, bits (w 1) 0 16 + 1, w 2, w 3, bits (w 4) 0 9, bits (w 5) 0 21, bit (w 6) 63,
    bits (w 6) 0 21, bits (w 7) 32 32, bits (w 7) 0 6, BitVec.ofNat 64 (w 8)⟩
/-- A barrier field of a parameter block (R164). -/
def barFieldOk (w : Nat) : Bool := bits w 21 42 == 0 && bits w 0 21 % 16 == 0 && (bit w 63 || bits w 0 21 == 0)
/-- Element size of modes 2 and 3 (R246). -/
def Template.z (t : Template) : Nat := if t.fmt = 1 then 4 else 2
/-- COPY_PARAM does not apply to a `cpy` (R242, R245). -/
def templateOk (v : Vector Word 16) (n : Nat) : Bool :=
  let w := setWord v
  let t := templateOf v
  let elemMode := t.mode == 2 || t.mode == 3
  decide (w 0 < 2 ^ 16) && bits (w 0) 3 5 == 0 && decide (w 1 < 2 ^ 16) && decide (w 4 < 2 ^ 9) && decide (w 5 < 2 ^ 21) && bits (w 7) 6 26 == 0 &&
    ((List.range 6).all fun i => w (9 + i) == 0) && decide (t.mode < 4) &&
    (if elemMode then t.fmt == 1 || t.fmt == 2 || t.fmt == 3 else t.fmt == 0 && !t.dec) &&
    (if t.mode == 1 then t.p % 8 == 0 && decide (16 ≤ t.p ∧ t.p ≤ 256) && t.fb % 64 == 0 && t.ssp != t.dsp && n % 256 == 0 else t.p == 0 && t.fb == 0) &&
    barFieldOk (w 6)
/-- Mode 1 packs when the source is virtual, and unpacks when the destination is (R245). -/
def Template.packs (t : Template) : Bool := t.ssp
/-- Bytes of a source row (R246). -/
def Template.srcRow (t : Template) (n : Nat) : Nat :=
  match t.mode with
  | 1 => if t.packs then n else n / 256 * t.p
  | 2 => if t.dec then (n + 7) / 8 else n * t.z
  | 3 => if t.dec then (n + 15) / 16 * 8 else n * t.z
  | _ => n
/-- Bytes of a destination row; a helper's is olen (R246, R253). -/
def Template.dstRow (t : Template) (help : Bool) (n : Nat) : Nat :=
  if help then t.olen
  else match t.mode with
    | 1 => if t.packs then n / 256 * t.p else n
    | 2 => if t.dec then n * t.z else (n + 7) / 8
    | 3 => if t.dec then n * t.z else (n + 15) / 16 * 8
    | _ => n
/-- Sectors of a destination row, and S (R246). -/
def Template.rowSectors (t : Template) (help : Bool) (n : Nat) : Nat := (t.dstRow help n + 31) / 32
def Template.total (t : Template) (help : Bool) (n : Nat) : Nat := t.nr * t.rowSectors help n

/-- Bytes from the base of a side to past its last row (R245). -/
def extent (nr stride row : Nat) : Nat := (nr - 1) * stride + row
/-- The first scratchpad extent that leaves the scratchpad (R245). -/
def Template.outside (t : Template) (help : Bool) (n dst src : Nat) : Option Nat :=
  let out (a len : Nat) := 0 < len ∧ spadSize < a + len
  if !t.ssp ∧ out src (extent t.nr t.sstr (t.srcRow n)) then some src
  else if !t.dsp ∧ out dst (extent t.nr t.dstr (t.dstRow help n)) then some dst
  else if t.mode = 1 ∧ out t.fb (t.nr * n) then some t.fb
  else if t.ben ∧ out t.bar 16 then some t.bar
  else none
/-- The first virtual extent with an address of 2^55 or more (R245). -/
def Template.beyond (t : Template) (help : Bool) (n dst src : Nat) : Option Nat :=
  let out (a len : Nat) := 0 < len ∧ 2 ^ 55 < a + len
  if t.ssp ∧ out src (extent t.nr t.sstr (t.srcRow n)) then some src
  else if t.dsp ∧ out dst (extent t.nr t.dstr (t.dstRow help n)) then some dst
  else none
/-- MEM_ALIGN applies (R245): the address to report. -/
def Template.misaligned (t : Template) (dst src : Nat) : Option Nat :=
  let bad (a st z : Nat) := a % z ≠ 0 ∨ st % z ≠ 0
  if t.mode = 1 then (if bad src t.sstr 8 then some src else if bad dst t.dstr 8 then some dst else none)
  else if t.mode = 2 ∨ t.mode = 3 then
    (if t.dec then (if bad dst t.dstr t.z then some dst else none) else if bad src t.sstr t.z then some src else none)
  else none
/-- The routine that a die holds at an index (R412). -/
def Die.routine (d : Die) (i : Nat) : Option Routine := d.routines.find? fun r => r.index == i
/-- An optional failure becomes a fault. -/
def failAt (o : Option Nat) (code : Nat) : Except Flt Unit :=
  match o with
  | some a => .error ⟨code, BitVec.ofNat 64 a, 0⟩
  | none => .ok ()

/-- The path of an engine's commands (R212). -/
def engPath : Eng → Path
  | .copy => .copy
  | .xft => .xft
  | .xpose => .coll
/-- The outputs of the transform in progress, which a command that is committed meanwhile is not ordered after (R179). -/
def Core.runningOutputs (k : Core) (c : CoreId) : List Fresh :=
  match k.xft with
  | none => []
  | some o => (planRanges k.eng1.active).map fun (a, n) => ⟨.xft, o.ctx, none, 0, 0, spadBase c + a, .replicate n 0, Path.xft.others, .none, [], true, false⟩
/-- A command enters the copy queue, or its bundle blocks (R235, R236); what its reads are not ordered after stands from now on (R225), and the writes to a
virtual source are noted (R251). -/
def State.enqueueCommand (s : State) (q : Command) (virt : Bool) : State :=
  if 512 ≤ s.me.copyq.length then s.block .copyFull
  else
    { s.mapMe fun k => { k with copyq := k.copyq ++ [{ q with tag := k.nextTag, behind := k.runningOutputs s.issue.core ++ k.openFor s.issue.core (engPath q.eng) }], nextTag := k.nextTag + 1 } with
      watch := if virt then ⟨s.issue.core, s.me.nextTag, []⟩ :: s.watch else s.watch }

/-- The checks of `cpy` and `cpyh` and the command (R244, R245, R253). -/
def copySlot (g : Guard) (help : Bool) (d a : SReg) (b : Src) (s : State) : Out :=
  runSlot g s fun s => do
    let v := s.me.eng0.active
    let t := templateOf v
    let dst := s.opD d
    let src := s.opA a
    let n := (s.opB b).toNat % 2 ^ 32
    require (!(s.my.grd && t.dsp)) Code.guardForbidden 0
    require (templateOk v n && (!help || (t.mode == 0 && decide (n ≤ 65536 ∧ t.olen ≤ 65536) &&
      ((s.die s.issue.core.die).routine t.routine).isSome))) Code.copyParam 0
    failAt (t.outside help n dst.toNat src.toNat) Code.scratchRange
    failAt (t.beyond help n dst.toNat src.toNat) Code.vaRange
    failAt (t.misaligned dst.toNat src.toNat) Code.memAlign
    .ok (s.enqueueCommand ⟨0, .copy, help, s.issue.ctx, v, dst, src, n, 0, 0, 0, [], [], false, none, 0, [], []⟩ t.ssp)
/-- R244. -/
def execCpy (g : Guard) (d a : SReg) (b : Src) (s : State) : Out := copySlot g false d a b s
/-- R253. -/
def execCpyh (g : Guard) (d a : SReg) (b : Src) (s : State) : Out := copySlot g true d a b s

/-! ### Engine accesses to memory (R228, R250) -/

/-- Why an engine's access does not take place: every walker is busy, so that the engine stands still (R280), a walk that finds no valid entry, at an
address, a transfer error (R250), or an absent member (R382). -/
inductive EngErr where
  | stand
  | walk (va : Nat)
  | code (c : Nat)
  | absent (c : Nat)
deriving DecidableEq, Repr

/-- The translation of one page for an engine (R279, R280). -/
def State.engTranslate (s : State) (d : DieId) (asid : BitVec 14) (va use : Nat) : Except EngErr (Kept × State) :=
  match s.translateFree d asid va use with
  | .ok r => .ok r
  | .error e => if e.code = Code.needWalk then .error .stand else .error (.walk va)
/-- A range of an engine's piece, which stays within one page, is assigned (R186): a peer window may end inside it. -/
def State.rangeAssigned (s : State) (pa n : Nat) : Bool := s.assigned pa && s.assigned (pa + n - 1)
/-- Bytes at a physical address as an engine reads them, of which the writes `rs` are not ordered before the read (R228); this package's own window is
resolved first (R185). Peers and other packages stand outside: the read leaves the package, its bytes are free, and a peer's error completion gives all-ones
bytes and the err bit of its window (R250; assumption 8). -/
def State.engFetch (s : State) (c : CoreId) (x : CtxId) (q : Path) (rs : List Fresh) (pa n : Nat) : Except EngErr (List Byte × State) :=
  let p := s.localPa pa
  if !s.rangeAssigned pa n then .error (.code errUnmapped)
  else
    let any := leBytes n (Config.freeBits (8 * n) s.tick (200000 + p)).toNat
    match regionClass p with
    | some .peer =>
      let e := s.peerEntry p
      let s := { s with out := s.out ++ [.peerRead e.port (e.bus.toNat * 4096 + p % 2 ^ 32) n] }
      if Config.freeChoice s.tick (200000 + p) then .ok (List.replicate n 0xFF, s.peerError p) else .ok (any, s)
    | some .remote => .ok (any, s.send (.remote (bits p 41 10) (p % 2 ^ 41) n))
    | _ => if s.poison.any fun u => overlaps u 8 p n then .error (.code errPoison) else .ok (leBytes n (s.mixed c q (meeting (s.farOutputs c x q p ++ rs) p n) p n (s.memRead p n)), s)
/-- A command of the queue by its tag. -/
def Core.command (k : Core) (tag : Word32) : Option Command := k.copyq.find? fun q => q.tag == tag
/-- What a command has written since `s` was on the path of the core's commands of its kind: it does not open what they read (R251). -/
def State.unseen (t s : State) (c : CoreId) (e : Eng) : State :=
  { t.mapCore c fun k => { k with copyq := (k.copyq.zip (s.core c).copyq).map fun y => if y.1.eng = e then { y.1 with dirty := y.2.dirty } else y.1 } with
    watch := (t.watch.zip s.watch).map fun y => if y.2.core = c ∧ ((s.core c).command y.2.tag).any fun q => q.eng == e then y.2 else y.1 }
/-- The barriers that a command reports to: BAR of a copy; BAR and SBAR of a transpose (R242, R256). -/
def Command.bars (q : Command) : List Nat :=
  ((if q.eng = .xpose then [5, 6] else [6]).filter fun i => bit (setWord q.set i) 63).map fun i => bits (setWord q.set i) 0 21
/-- Bytes put at a physical address by an engine of a core for a context: this package's own window is resolved first (R185). `kept` says that the page is
write-back (R192). What goes to another package is performed once that package acknowledges it; `cmd` is the command, with its sector or rank, that waits for
it (R226, R227, R246). -/
def State.engStore (s : State) (c : CoreId) (x : CtxId) (cmd : Option (Word32 × Nat)) (kept : Bool) (pa : Nat) (b : List Byte) : State :=
  let p := s.localPa pa
  match regionClass p with
  | some .peer =>
    let e := s.peerEntry p
    { s with out := s.out ++ [.peerWrite e.port (e.bus.toNat * 4096 + p % 2 ^ 32) b] }
  | some .remote =>
    (s.mapCore c fun k => { k with sent := k.sent ++ [⟨k.nextAcc, x, cmd, p, b.length⟩], nextAcc := k.nextAcc + 1 }).send
      (.packet (bits p 41 10) (p % 2 ^ 41) none b)
  | _ =>
    match cmd.bind fun p => (s.core c).command p.1 with
    | some q => ((s.noteOn { path := engPath q.eng, ctx := x, tells := ⟨toBars q.bars, none, some q.tag⟩ } c p b.length).writeBy kept false p b).unseen s c q.eng
    | none => s.writeBy kept false p b

/-- Pieces of a range that stay within one 64 KiB page. -/
def pieces (va n : Nat) : Nat → List (Nat × Nat)
  | 0 => []
  | fuel + 1 =>
    if n = 0 then []
    else let m := min n (65536 - va % 65536); (va, m) :: pieces (va + m) (n - m) fuel
/-- The launch's address space for an engine of a core. -/
def State.engAsid (s : State) (c : CoreId) (x : CtxId) : BitVec 14 := ((s.launchOf c x).map (·.asid)).getD 0
def pageCount (n : Nat) : Nat := n / 65536 + 2
/-- Bytes of a virtual range. -/
def State.virtFetch (s : State) (c : CoreId) (x : CtxId) (q : Path) (asid : BitVec 14) (rs : List Fresh) (sram : Bool) :
    List (Nat × Nat) → Except EngErr (List Byte × State)
  | [] => .ok ([], s)
  | (va, n) :: t => do
    let (k, s) ← s.engTranslate c.die asid va (300 + va)
    (if sram ∧ !(k.cls = .onchip ∧ sramBase ≤ s.localPa (k.paOf va)) then Except.error (.code errRefused) else .ok ())
    let (b, s) ← s.engFetch c x q rs (k.paOf va) n
    let (r, s) ← s.virtFetch c x q asid rs sram t
    .ok (b ++ r, s)
/-- Bytes put at a virtual range: every page is checked before it is written. -/
def State.virtStore (s : State) (c : CoreId) (x : CtxId) (cmd : Option (Word32 × Nat)) (asid : BitVec 14) (sram : Bool) : List (Nat × Nat) → List Byte → Except EngErr State
  | [], _ => .ok s
  | (va, n) :: t, b => do
    let (k, s) ← s.engTranslate c.die asid va (400 + va)
    (if sram ∧ !(k.cls = .onchip ∧ sramBase ≤ s.localPa (k.paOf va)) then Except.error (.code errRefused)
      else if k.isSealed then .error (.code errSealed)
      else if !s.rangeAssigned (k.paOf va) n then .error (.code errUnmapped) else .ok ())
    (s.engStore c x cmd (k.policy == 0) (k.paOf va) (b.take n)).virtStore c x cmd asid sram t (b.drop n)

/-- Bytes of a source row or of part of it. -/
def State.cmdFetch (s : State) (c : CoreId) (q : Command) (virt sram : Bool) (a n : Nat) : Except EngErr (List Byte × State) :=
  if virt then s.virtFetch c q.ctx (engPath q.eng) (s.engAsid c q.ctx) q.behind sram (pieces a n (pageCount n))
  else if s.poison.any fun u => overlaps u 8 (spadBase c + a) n then .error (.code errPoison)
  else .ok (leBytes n (s.spadReadPast q.behind (engPath q.eng) c a n), s)
/-- Bytes written into the core's own scratchpad by a command on its path. -/
def State.cmdPut (s : State) (c : CoreId) (q : Command) (a : Nat) (b : List Byte) : State :=
  (s.spadWriteOn { path := engPath q.eng, ctx := q.ctx, tells := ⟨toBars q.bars, none, some q.tag⟩ } c a b).unseen s c q.eng
/-- Bytes of a sector or of a rank stored by a command. -/
def State.cmdStore (s : State) (c : CoreId) (q : Command) (virt sram : Bool) (at_ : Nat) (a : Nat) (b : List Byte) : Except EngErr State :=
  if virt then s.virtStore c q.ctx (some (q.tag, at_)) (s.engAsid c q.ctx) sram (pieces a b.length (pageCount b.length)) b
  else .ok (s.cmdPut c q a b)

/-! ### What a row becomes (R247 to R249) -/

def words32 (b : List Byte) : Nat → List Nat
  | 0 => []
  | n + 1 => leNat (b.take 4) :: words32 (b.drop 4) n
/-- Pack: the slot of a raw block, and whether it overflows (R247). -/
def packBlock (p : Nat) (raw : List Byte) : List Byte × Bool :=
  let ws := words32 raw 64
  let nz := ws.filter (· != 0)
  if 8 + 4 * nz.length ≤ p then
    let bitmap := ws.zipIdx.foldl (fun t (w, k) => if w = 0 then t else t + 2 ^ k) 0
    (((leBytes 8 bitmap ++ nz.flatMap (leBytes 4)) ++ List.replicate p 0).take p, false)
  else (((List.replicate 8 (0xFF : Byte)) ++ List.replicate p 0).take p, true)
/-- The words of an unpacked block: one packed word for each bit (R247). -/
def unpackWords (h : Nat) : Nat → Nat → List Byte → List Byte
  | 0, _, _ => []
  | n + 1, k, b => if bit h k then b.take 4 ++ unpackWords h n (k + 1) (b.drop 4) else List.replicate 4 0 ++ unpackWords h n (k + 1) b
/-- Unpack: the raw block, or none when the slot is malformed; `spill` is its fallback area (R247). -/
def unpackBlock (p : Nat) (slot spill : List Byte) : Option (List Byte) :=
  let h := leNat (slot.take 8)
  if h = 2 ^ 64 - 1 then some spill
  else if p < 8 + 4 * ((List.range 64).countP fun k => bit h k) then none
  else some (unpackWords h 64 0 (slot.drop 8))
/-- The format of modes 2 and 3 (R242). -/
def Template.fp (t : Template) : FpFmt := if t.fmt = 1 then fp32 else if t.fmt = 2 then fp16 else bf16
def elemsOf (z : Nat) (b : List Byte) (n : Nat) : List Nat := splitW (8 * z) n (leNat b)
/-- Modes 0, 2 and 3: the destination row of a source row of n bytes or elements (R247 to R249). -/
def Template.convert (t : Template) (n : Nat) (b : List Byte) : List Byte :=
  match t.mode, t.dec with
  | 2, false => leBytes ((n + 7) / 8) (joinW 1 ((elemsOf t.z b n).map fun x => (Fp.lt Fp.zero (Fp.ofBits t.fp x)).toNat))
  | 2, true => leBytes (n * t.z) (joinW (8 * t.z) ((splitW 1 n (leNat b)).map fun x => if x = 1 then t.fp.oneBits else 0))
  | 3, false => leBytes ((n + 15) / 16 * 8) (sxEncodeRow 2 ((elemsOf t.z b n).map fun x => some (Fp.ofBits t.fp x)))
  | 3, true => leBytes (n * t.z) (joinW (8 * t.z) ((List.range n).map fun i => (sxRowElem 2 (leNat b) i).round t.fp .rn))
  | _, _ => b

/-- Bytes `lo` to `lo + len - 1` of destination row r, and the overflowing blocks whose slot starts there, with their raw bytes (R246, R247). -/
def State.rowSlice (s : State) (c : CoreId) (q : Command) (r lo len : Nat) : Except EngErr (List Byte × List (Nat × List Byte) × State) := do
  let t := templateOf q.set
  let a := q.src.toNat + r * t.sstr
  if q.help then .ok ((q.rowOut.drop lo).take len, [], s)
  else if t.mode = 0 then do
    let (b, s) ← s.cmdFetch c q t.ssp false (a + lo) len
    .ok (b, [], s)
  else if t.mode = 1 then
    if t.packs then do
      let first := lo / t.p
      let last := (lo + len - 1) / t.p
      let (b, s) ← s.cmdFetch c q true true (a + 256 * first) (256 * (last - first + 1))
      let blocks := (List.range (last - first + 1)).map fun i => (first + i, (b.drop (256 * i)).take 256)
      let out := blocks.flatMap fun x => (packBlock t.p x.2).1
      let spill := blocks.filter fun x => decide (lo ≤ x.1 * t.p) && decide (x.1 * t.p < lo + len) && (packBlock t.p x.2).2
      .ok ((out.drop (lo - first * t.p)).take len, spill.map fun x => (r * (q.n / 256) + x.1, x.2), s)
    else do
      let j := lo / 256
      let (b, s) ← s.cmdFetch c q false false (a + j * t.p) t.p
      let (spill, s) ← if leNat (b.take 8) = 2 ^ 64 - 1 then s.cmdFetch c q false false (t.fb + 256 * (r * (q.n / 256) + j)) 256 else .ok ([], s)
      match unpackBlock t.p b spill with
      | none => .error (.code errMalformed)
      | some raw => .ok ((raw.drop (lo - 256 * j)).take len, [], s)
  else do
    let (b, s) ← s.cmdFetch c q t.ssp false a (t.srcRow q.n)
    .ok (((t.convert q.n b).drop lo).take len, [], s)

/-! ### The progress of a command (R246, R250, R251) -/

def Core.mapCommand (k : Core) (tag : Word32) (f : Command → Command) : Core := { k with copyq := k.copyq.map fun q => if q.tag = tag then f q else q }
def Core.dropCommand (k : Core) (tag : Word32) : Core := { k with copyq := k.copyq.filter fun q => q.tag != tag }
/-- The launch whose task issued a command. -/
def State.cmdLaunch (s : State) (c : CoreId) (q : Command) : Option Nat := (s.ctx c q.ctx).launch

/-- A barrier named by an enabled field of a command is updated. -/
def State.barUpdate (s : State) (c : CoreId) (q : Command) (field : Nat) (k : UpdKind) (n : Nat) : State :=
  if bit field 63 then s.updateBarrier c (s.cmdLaunch c q) (bits field 0 21) k n else s

/-- The command leaves the queue, and contexts blocked on a full queue may go on (R235). -/
def State.dropCommand (s : State) (c : CoreId) (tag : Word32) : State :=
  ({ s.mapCore c fun k => { k.dropCommand tag with sent := k.sent.filter fun w => w.cmd.map Prod.fst != some tag } with watch := s.watch.filter fun w => !(w.core == c && w.tag == tag) }).wake c

/-- A command stops on an engine fault: its record is placed and the core runs on (R250, R357); with no place in the trap queue the core stays frozen until
one is free (R235, R354). -/
def State.stopCommand (s : State) (c : CoreId) (q : Command) (va : Nat) : State :=
  let r : Record := ⟨0, c, q.ctx, 0, if q.eng = .xpose then 3 else 2, BitVec.ofNat 8 Code.engineFault, 0, 0, BitVec.ofNat 64 va, q.tag.setWidth 64⟩
  if (s.trapQ c.cluster).full then s.mapCore c fun k => k.mapCommand q.tag fun y => { y with stopped := true, waiting := some r }
  else ((s.placeRecord r).mapCore c fun k => k.mapCommand q.tag fun y => { y with stopped := true })

/-- The bytes of source and of destination that make one unit of a mode (R247 to R249). -/
def Template.unit (t : Template) : Nat × Nat :=
  match t.mode, t.dec with
  | 1, _ => if t.packs then (256, t.p) else (t.p, 256)
  | 2, false => (8 * t.z, 1)
  | 2, true => (1, 8 * t.z)
  | 3, false => (16 * t.z, 8)
  | 3, true => (8, 16 * t.z)
  | _, _ => (1, 1)
/-- The physical ranges of a piece of a command's side: the core's own scratchpad, or where the pages of a virtual range lie (R251). -/
def State.sideRanges (s : State) (c : CoreId) (q : Command) (virt : Bool) (a n : Nat) : List (Nat × Nat) :=
  if !virt then [(spadBase c + a, n)]
  else (pieces a n (pageCount n)).filterMap fun (va, m) =>
    match s.translate c.die (s.engAsid c q.ctx) va (300 + va) with
    | .ok (k, _) => some (s.localPa (k.paOf va), m)
    | .error _ => none
/-- Ranges of two lists share a byte. -/
def rangesMeet (xs ys : List (Nat × Nat)) : Bool := xs.any fun x => ys.any fun y => overlaps x.1 x.2 y.1 y.2
/-- What other paths have written since the command's commit, as physical ranges (R251). -/
def State.dirtyRanges (s : State) (c : CoreId) (q : Command) : List (Nat × Nat) :=
  q.dirty.map (fun d => (spadBase c + d.1, d.2)) ++ (s.watch.filter fun w => w.core == c && w.tag == q.tag).flatMap (·.dirty)
/-- The fallback area of a pack or unpack command: one block for each 256 raw bytes (R247). -/
def Template.spillRange (t : Template) (c : CoreId) (n : Nat) : List (Nat × Nat) := if t.mode = 1 then [(spadBase c + t.fb, t.nr * n)] else []
/-- The byte of the fallback area from which an unpack takes byte `i` of row `r`, where the slot's header sends it there (R247). -/
def State.spillSource (s : State) (c : CoreId) (q : Command) (r i : Nat) : List (Nat × Nat) :=
  let t := templateOf q.set
  if t.mode = 1 ∧ !t.packs ∧ Memory.read s.mem (spadBase c + q.src.toNat + r * t.sstr + i / 256 * t.p) 8 = 2 ^ 64 - 1 then
    [(spadBase c + t.fb + r * q.n + i, 1)] else []
/-- The open bytes among the first `done` sectors of a copy that ends (R251): another path wrote a source byte that they depend on, or source and destination
of the command overlap there. Rows and bytes of the destination. -/
def State.openBytes (s : State) (c : CoreId) (q : Command) (done : Nat) : List (Nat × Nat) :=
  let t := templateOf q.set
  let (su, du) := t.unit
  let row (virt : Bool) (base stride len r : Nat) := s.sideRanges c q virt (base + r * stride) len
  let srcs := (List.range t.nr).flatMap (row t.ssp q.src.toNat t.sstr (t.srcRow q.n)) ++ t.spillRange c q.n
  let dsts := (List.range t.nr).flatMap (row t.dsp q.dst.toNat t.dstr (t.dstRow q.help q.n))
  let dirty := s.dirtyRanges c q
  let both := rangesMeet srcs dsts
  if !both && !rangesMeet srcs dirty then []
  else (List.range t.nr).flatMap fun r => ((List.range (t.dstRow q.help q.n)).filter fun i =>
    decide (r * t.rowSectors q.help q.n + i / 32 < done) &&
    let unit := s.sideRanges c q t.ssp (q.src.toNat + r * t.sstr + (if q.help then 0 else i / du * su)) (if q.help then q.n else su)
    rangesMeet (unit ++ s.spillSource c q r i) dirty || (both && (rangesMeet unit dsts || rangesMeet (s.sideRanges c q t.dsp (q.dst.toNat + r * t.dstr + i) 1) srcs))).map fun i => (r, i)
/-- The open blocks of the fallback area of a pack that ends (R247, R251): of the slots among its first `done` sectors, those whose raw block another path has
written. -/
def State.openSpill (s : State) (c : CoreId) (q : Command) (done : Nat) : List Nat :=
  let t := templateOf q.set
  if t.mode ≠ 1 ∨ !t.packs then []
  else (List.range t.nr).flatMap fun r => ((List.range (q.n / 256)).filter fun j => decide (r * t.rowSectors q.help q.n + j * t.p / 32 < done) &&
    rangesMeet (s.sideRanges c q true (q.src.toNat + r * t.sstr + 256 * j) 256) (s.dirtyRanges c q)).map fun j => r * (q.n / 256) + j
/-- Open destination bytes get free values (R251; assumption 20); what has left the package stays as it was sent. -/
def State.openCopy (s : State) (c : CoreId) (q : Command) (done : Nat) : State :=
  let t := templateOf q.set
  let s := (s.openSpill c q done).foldl (fun u i => u.cmdPut c q (t.fb + 256 * i) (leBytes 256 (Config.freeBits 2048 s.tick (400000 + i)).toNat)) s
  (s.openBytes c q done).foldl (fun u (r, i) =>
    let b := [Config.freeBits 8 s.tick (500000 + r * 65536 + i)]
    let a := q.dst.toNat + r * t.dstr + i
    if !t.dsp then u.cmdPut c q a b
    else (s.sideRanges c q true a 1).foldl (fun v (pa, _) => match regionClass pa with
      | some .peer | some .remote => v
      | _ => v.writeBy false false pa b) u) s

/-- A copy or helper command ends with an error: no further writes, the outstanding sectors at once, err (R250). Assumption 39. -/
def State.failCopy (s : State) (c : CoreId) (q : Command) (code : Nat) : State :=
  let t := templateOf q.set
  ((((s.openCopy c q q.sectors).dropCommand c q.tag).mapCore c fun k => k.setErr .copy code).barUpdate c q (setWord q.set 6) .error (t.total q.help q.n - q.decs))

/-- Fallback writes and the overflow flag (R247). -/
def State.spillBlocks (s : State) (c : CoreId) (q : Command) (bs : List (Nat × List Byte)) : State :=
  bs.foldl (fun s (i, raw) => (s.cmdPut c q ((templateOf q.set).fb + 256 * i) raw).barUpdate c q (setWord q.set 6) .overflow 0) s

/-- A sector of a command has been performed at its home: the barrier is decremented, once for each sector (R246, R370), and the last one completes the
command. -/
def State.sectorDone (s : State) (c : CoreId) (tag : Word32) : State :=
  match (s.core c).command tag with
  | none => s
  | some q =>
    let last := q.sectors + 1 == (templateOf q.set).total q.help q.n
    let s := s.mapCore c fun k => (k.mapCommand tag fun y => { y with sectors := y.sectors + 1, decs := max y.decs (q.sectors + 1) }).count 12 1
    let s := if last then (s.openCopy c q (q.sectors + 1)).dropCommand c tag else s
    if q.decs ≤ q.sectors then s.barUpdate c q (setWord q.set 6) .sector 1 else s
/-- An engine's packets find the send queue of a port full, for as long as chance has it: the core freezes, and the engine sends them when it goes on (R235,
R236). `u` is the state after they are sent; a queue that nothing has entered since ready is not full. Assumption 80. -/
def State.orStall (s u : State) (far : Bool) (c : CoreId) (x : CtxId) : State :=
  if far && s.pkg.queued != 0 && u.pkg.queued != s.pkg.queued && Config.freeChoice s.tick 985000 then
    s.mapCore c fun k => { k with freeze := some ⟨.send, x, 0, 0, true, []⟩ }
  else u
/-- Writes of a command to another package are not acknowledged yet (R226, R246). -/
def Core.awaitsAck (k : Core) (tag : Word32) : Bool := k.sent.any fun w => match w.cmd with | some p => p.1 == tag | none => false
/-- The next sector of a copy or helper command is written, and performed unless it waits for another package (R246). -/
def State.copySector (s : State) (c : CoreId) (q : Command) : Except EngErr State := do
  let t := templateOf q.set
  let per := t.rowSectors q.help q.n
  let r := q.sectors / per
  let lo := 32 * (q.sectors % per)
  let len := min 32 (t.dstRow q.help q.n - lo)
  let (b, spill, s) ← s.rowSlice c q r lo len
  let s ← (s.spillBlocks c q spill).cmdStore c q t.dsp (t.mode == 1) q.sectors (q.dst.toNat + r * t.dstr + lo) b
  .ok (if (s.core c).awaitsAck q.tag then s else s.sectorDone c q.tag)

/-- A row of the helper has ended before its sectors are written (R254). -/
def Command.rowReady (q : Command) : Bool :=
  let t := templateOf q.set
  !q.help || decide (q.sectors < q.row * t.rowSectors q.help q.n)
/-- COPY_SECTOR_PERFORMED (R246): sectors of one command in ascending order (assumption 19); a command without sectors completes. -/
def execCopySectorPerformed (c : CoreId) (tag : BitVec 32) (s : State) : Out :=
  match (s.core c).command tag with
  | none => .next s
  | some q =>
    if q.stopped || q.eng == .xpose || (s.core c).halted || (s.core c).awaitsAck tag then .next s
    else
      let t := templateOf q.set
      if t.total q.help q.n = 0 then .next (if q.help && decide (q.row < t.nr) then s else s.dropCommand c tag)
      else if !q.rowReady then .next s
      else
        match s.copySector c q with
        | .ok u => .next (s.orStall u t.dsp c q.ctx)
        | .error .stand => .next s
        | .error (.walk va) => .next (s.stopCommand c q va)
        | .error (.code e) => .next (s.failCopy c q e)
        | .error (.absent e) => .next (s.failCopy c q e)

/-! ### The helper (R253 to R255) -/

/-- The command that the helper serves: the first `cpyh` in commit order (R254). -/
def Core.helperTurn (k : Core) : Option Word32 := (k.copyq.find? fun q => q.help).map (·.tag)
/-- A helper row ends with an error: the command ends (R255). -/
def State.helperFail (s : State) (c : CoreId) (q : Command) : State := s.failCopy c q errHelperFault
/-- The registers that a row starts with: a0 = arg, a1 = row, a2 = n, a3 = olen, and zero in every other (R254). -/
def helperRegs (t : Template) (row n : Nat) : Vector Word 32 :=
  (((Vector.replicate 32 0).set 10 t.arg).set 11 (BitVec.ofNat 64 row)).set 12 (BitVec.ofNat 64 n) |>.set 13 (BitVec.ofNat 64 t.olen)
/-- The run of a command's next row on its input, with fcsr zero (R254, R412). -/
def State.helperRun (s : State) (c : CoreId) (q : Command) (input : List Byte) : Config.HelperRun :=
  let t := templateOf q.set
  let r := ((s.die c.die).routine t.routine).getD ⟨0, 0, []⟩
  Config.helperRun r.body r.entry input (helperRegs t q.row q.n) 0
/-- An access of a helper routine: aligned, and within one of the two 64 KiB stream buffers (R254, R255, R412). -/
def helperAccessOk (a n : Nat) : Bool :=
  decide (a % n = 0) && (decide (0x10000000 ≤ a ∧ a + n ≤ 0x10010000) || decide (0x20000000 ≤ a ∧ a + n ≤ 0x20010000))
/-- HELPER_FAULT: an access that is not one of those, an illegal instruction, or more than 2^22 instructions (R255, R412). -/
def helperFaults (r : Config.HelperRun) : Bool :=
  r.illegal || decide (2 ^ 22 < r.count) || r.accesses.any fun p => !helperAccessOk p.1 p.2
/-- The end of a row's run, with its output and byte count (R254, R255). -/
def State.helperRow (s : State) (c : CoreId) (q : Command) (r : Config.HelperRun) : State :=
  let t := templateOf q.set
  let n := r.produced
  let row := ((r.out.take n) ++ List.replicate t.olen 0).take t.olen
  let s := s.mapCore c fun k => k.mapCommand q.tag fun y => { y with row := y.row + 1, rowOut := row }
  if n = t.olen then s else (s.barUpdate c q (setWord q.set 6) .flag 0).mapCore c fun k => k.setErr .copy errHelperLength
/-- HELPER_ROW_END (R254): the next row of the command whose turn it is, once the sectors of the row before are written. -/
def execHelperRowEnd (c : CoreId) (tag : BitVec 32) (s : State) : Out :=
  match (s.core c).command tag with
  | none => .next s
  | some q =>
    let t := templateOf q.set
    if q.stopped || !q.help || (s.core c).halted || (s.core c).helperTurn != some tag || decide (t.nr ≤ q.row) || decide (q.sectors < q.row * t.rowSectors true q.n) then .next s
    else
      match s.cmdFetch c q t.ssp false (q.src.toNat + q.row * t.sstr) q.n with
      | .error .stand => .next s
      | .error (.walk va) => .next (s.stopCommand c q va)
      | .error (.code e) => .next (s.failCopy c q e)
      | .error (.absent e) => .next (s.failCopy c q e)
      | .ok (b, u) =>
        let r := s.helperRun c q b
        .next (if helperFaults r then u.helperFail c q else u.helperRow c q r)
/-- HELPER_FAULT (R255): the row in progress, whose sectors before it are written, meets one of its three causes. -/
def execHelperFault (c : CoreId) (tag : BitVec 32) (s : State) : Out :=
  match (s.core c).command tag with
  | none => .next s
  | some q =>
    let t := templateOf q.set
    if q.stopped || !q.help || (s.core c).halted || (s.core c).helperTurn != some tag || decide (t.nr ≤ q.row) || decide (q.sectors < q.row * t.rowSectors true q.n) then .next s
    else
      match s.cmdFetch c q t.ssp false (q.src.toNat + q.row * t.sstr) q.n with
      | .ok (b, u) => .next (if helperFaults (s.helperRun c q b) then u.helperFail c q else s)
      | .error _ => .next s

/-! ### rsave, rload, bnload (R268, R269, R299) -/

/-- The checks of a 16-byte stream record (R268). -/
def streamCheck (a : Word) : Except Flt Unit := do
  require (decide (a.toNat % 16 = 0)) Code.memAlign a
  require (decide (a.toNat + 16 ≤ spadSize)) Code.scratchRange a
/-- R268: the values before any pop of the bundle. -/
def execRsave (g : Guard) (a : SReg) (b : Src) (s : State) : Out :=
  runSlot g s fun s => do
    let ad := s.opA a + s.opB b
    streamCheck ad
    .ok (((s.touch [ad.toNat]).stage (.spad ad.toNat 8 ((s.readSpec .rseed 3).setWidth 2048))).stage (.spad (ad.toNat + 8) 8 ((s.readSpec .rpos 4).setWidth 2048)))
/-- R269: the queue is discarded at commit. -/
def execRload (g : Guard) (a : SReg) (b : Src) (s : State) : Out :=
  runSlot g s fun s => do
    let ad := s.opA a + s.opB b
    streamCheck ad
    let rd (o : Nat) : VWord := BitVec.ofNat 2048 (s.spadReadOn .core s.issue.core (ad.toNat + o) 8)
    let bad (o : Nat) := s.poisonAt (spadBase s.issue.core + ad.toNat + o) 8
    .ok ((((s.touch [ad.toNat]).writeLoad (.spec .rseed) 4 (rd 0) (bad 0) []).writeLoad (.spec .rpos) 4 (rd 8) (bad 8) []).mapMe fun k => { k with rndCount := 0 })
/-- R299, R300: the pattern is replaced whole, seen by a `bnet` two cycles later. -/
def execBnload (g : Guard) (c : Fin 8) (a : SReg) (b : Src) (s : State) : Out :=
  runSlot g s fun s => do
    let ad := s.opA a + s.opB b
    require (decide (ad.toNat % 64 = 0)) Code.memAlign ad
    require (decide (ad.toNat ≤ 0x1FFFC0)) Code.scratchRange ad
    .ok (((s.loadPoison 2 [(ad.toNat, 64)]).touch [ad.toNat]).mapMe fun k =>
      { k with patPend := k.patPend ++ [(k.cycle, c, BitVec.ofNat 512 (s.spadReadOn .core s.issue.core ad.toNat 64))] })

end Sys2Proof.Machine
end

