-- ==== Sys2Proof/Machine/Transpose.lean ====
section
/-!
DEFINITION. Sys2Proof/Machine/Transpose.lean: where the tasks of a launch run (R14, R15), the members of address groups (R293, R382), and the transpose
engine (R256 to R260, R394).
-/
namespace Sys2Proof.Machine

/-! ### Tasks and members -/

/-- The enabled cores that a launch names, ascending (R15, R334). -/
def State.namedCores (s : State) (d : DieId) (cores : BitVec 256) : List CoreId :=
  ((List.range 256).filter fun i => cores.getLsbD i && s.coreEnabled (coreOn d i)).map (coreOn d)
/-- The core of a task of a launch placed whole (R15). -/
def State.taskCore (s : State) (d : DieId) (l : Launch) (task : Nat) : Option CoreId := (s.namedCores d l.cores)[task / max 1 l.n]?

/-- The fields of a member entry (R293). -/
structure Member where
  pkg : Nat
  core : CoreId
  base : Nat
  en : Bool
  bar : Nat
deriving DecidableEq, Repr
def memberOf (w : Vector Word 4) : Member :=
  let v (i : Nat) := (w.toList.getD i 0).toNat
  ⟨bits (v 0) 32 19, ⟨bits (v 0) 14 9, by unfold bits; exact Nat.mod_lt _ (by decide)⟩, bits (v 1) 0 52, bit (v 2) 63, bits (v 2) 0 21⟩
/-- The active copy of a group (R294). -/
def Die.group (d : Die) (i : Nat) : Option GroupCopy := d.groups.find? fun g => g.idx == i
/-- The rank of a core of this package in a group. -/
def State.rankOf (s : State) (g : GroupCopy) (c : CoreId) : Option Nat :=
  g.members.findIdx? fun w => (memberOf w).pkg == s.pkg.fabid.toNat && (memberOf w).core == c
/-- A member lies in this package. -/
def State.isOwn (s : State) (m : Member) : Bool := m.pkg == s.pkg.fabid.toNat

/-- Codes of absence beyond those of R243 (R382). -/
def errGroupMismatch : Nat := 0x0B
def errSealFail : Nat := 0x0C
/-- The nonce of the next packet that this package seals for a group (R383). -/
def State.nonceOf (s : State) (g : GroupCopy) : BitVec 96 := g.gid ++ s.pkg.fabid ++ s.pkg.nonce
/-- The header of a packet of a group, as far as the spec says what it carries (R294, R383; assumption 10). -/
def GroupCopy.header (g : GroupCopy) : List Byte := leBytes 4 g.gid.toNat ++ leBytes 8 g.digest.toNat
/-- What a packet of a group to another package carries, and the payload `b` as it goes: in a sealed group it is encrypted under the key of the group's slot,
and each packet takes the next value of this package's counter (R294, R383). -/
def State.stamp (s : State) (g : GroupCopy) (b : List Byte) : Stamp × List Byte × State :=
  let key := (s.pkg.keys.lookup g.key).getD 0
  if g.isSealed then
    (⟨g.gid, g.digest, some (s.pkg.nonce, Config.gcmTag key (s.nonceOf g) g.header b)⟩, Config.gcmSeal key (s.nonceOf g) g.header b,
      s.mapPkg fun p => { p with nonce := p.nonce + 1 })
  else (⟨g.gid, g.digest, none⟩, b, s)
/-- A packet of a group leaves, with a payload. Once the counter of sealed packets has come to its end, no more leave, so that no nonce repeats (R383):
assumption 102. -/
def State.sendGroup (s : State) (g : GroupCopy) (b : List Byte) (f : Stamp → List Byte → OutMsg) : State :=
  if g.isSealed && s.pkg.nonce == BitVec.allOnes 45 then s
  else
    let (t, b, s) := s.stamp g b
    s.send (f t b)

/-- An arrival at a member's barrier, here or on its way to its package (R388, R394); a core that is fused off has none (R10). -/
def State.arriveMember (s : State) (g : GroupCopy) (launch : Option Nat) (m : Member) (fail : Bool) : State :=
  if !m.en then s
  else if s.isOwn m then (if s.coreEnabled m.core then s.updateBarrier m.core launch m.bar (if fail then .arriveErr else .arrive) 1 else s)
  else s.sendGroup g [] fun t _ => .arrival m.pkg m.core.val m.bar fail t
/-- A scoreboard bit at a member's die (R293). -/
def State.setMemberBit (s : State) (g : GroupCopy) (m : Member) (board first : Nat) : State :=
  if s.isOwn m then s.setBoardRange m.core.die board first 1 false else s.sendGroup g [] fun t _ => .bit m.pkg m.core.val board first t
/-- A member address: base plus offset, bits 5:0 cleared (R382). Assumption 43. -/
def memberAddr (m : Member) (off : Nat) : Nat := (m.base + off) % 2 ^ 52 / 64 * 64
/-- A write at a member takes only a part of a poisoned unit, whose other bytes it would have to read (R195, R382). Assumption 69. -/
def State.splitsPoison (s : State) (pa n : Nat) : Bool := s.poison.any fun u => overlaps u 8 pa n && !(decide (pa ≤ u) && decide (u + 8 ≤ pa + n))
/-- Bytes put at an address of a member's package; in this package a write that fails gives its code (R382). `bars` and `sb` are the barriers and the bit
that tell of it (R227). A member base inside a peer window of this package is written as memory of the package, with no message to the peer: no rule speaks of
it, and that is the model's choice, assumption 101. -/
def State.writeMember (s : State) (g : GroupCopy) (m : Member) (launch : Option Nat) (bars : List Nat) (sb : Option (Nat × Nat)) (pa : Nat) (b : List Byte) :
    Except Nat State :=
  if b = [] then .ok s
  else if s.isOwn m then
    let p := s.localPa pa
    if !s.rangeAssigned pa b.length then .error errUnmapped
    else if s.splitsPoison p b.length then .error errPoison
    else if h : 0x010000000000 ≤ p ∧ (p - 0x010000000000) / 0x200000 < 512 then
      .ok (s.deliverColl ⟨(p - 0x010000000000) / 0x200000, h.2⟩ launch bars sb ((p - 0x010000000000) % 0x200000) b)
    else .ok (s.otherWrite p b)
  else .ok (s.sendGroup g b fun t b => .packet m.pkg pa (some t) b)

/-! ### Packets of other packages (R294, R383, R388, R393, R394) -/

/-- An answer to a packet of another package: 0, or the code of R382. It is a packet of the group too, where this package knows the group (R383). -/
def State.answer (s : State) (g : Option GroupCopy) (code : Nat) : State :=
  match g with
  | none => s.send (.reply (code != 0) (BitVec.ofNat 64 code) none)
  | some g => s.sendGroup g (leBytes 8 code) fun t b => .reply (code != 0) (BitVec.ofNat 64 (leNat b)) (some t)
/-- A packet of a group is refused: counted where the fabric registers say (R379). -/
def State.refuse (s : State) (e : Nat × Option GroupCopy) : State :=
  (s.mapPkg fun p =>
    if e.1 = errGroupMismatch then { p with mism := p.mism + 1 } else if e.1 = errSealFail then { p with sealfail := p.sealfail + 1 } else p).answer e.2 e.1
/-- An operation of this package finds a member absent because a packet did not authenticate. Where it was the answer, it failed here, and is counted here; the
code alone does not tell, so a free choice does (R379, R383). Assumption 8. -/
def State.answerFails (s : State) (g : GroupCopy) (m : Member) (gone : BitVec 8) : State :=
  if gone.toNat = errSealFail ∧ g.isSealed ∧ !s.isOwn m ∧ Config.freeChoice s.tick 896000 then s.mapPkg fun p => { p with sealfail := p.sealfail + 1 } else s
/-- The group and the member that a packet names, or why it is refused, with the group where there is one: no active copy of its gid, a packet that does not authenticate, another digest, or a
member that is not of this package (R294, R382, R383). -/
def State.packetMember (s : State) (d : DieId) (gid : BitVec 32) (digest : Word) (genuine : Bool) (rank : Nat) : Except (Nat × Option GroupCopy) (GroupCopy × Member) :=
  match (s.die d).groups.find? fun g => g.gid == gid with
  | none => .error (errGroupMismatch, none)
  | some g =>
    if g.isSealed && !genuine then .error (errSealFail, some g)
    else if g.digest ≠ digest then .error (errGroupMismatch, some g)
    else
      match g.members[rank]? with
      | none => .error (errGroupMismatch, some g)
      | some w => if s.isOwn (memberOf w) then .ok (g, memberOf w) else .error (errGroupMismatch, some g)
/-- A packet of another package's operation reaches a member: its bytes are written, its arrival and its bit are made. When the write fails, an `mcred` result
(`late`) still makes its arrival, with the error flag (R388); any other operation finds the member absent (R382). Its tasks are not of a launch of this
package (R372). -/
def State.packetArrives (s : State) (late : Bool) (p : GroupPacket) : State :=
  match s.packetMember p.die p.gid p.digest p.genuine p.rank with
  | .error e => s.refuse e
  | .ok (g, m) =>
    let bars := if p.arrive && m.en then [m.bar] else []
    let arrive (s : State) (fail : Bool) : State := if p.arrive then s.arriveMember g none m fail else s
    match s.writeMember g m none bars (p.bit.map fun b => (b.1.val, b.2.val)) (memberAddr m p.off.toNat + p.place) p.bytes with
    | .error e => (if late then arrive s true else s).answer (some g) e
    | .ok u =>
      let u := arrive u p.err
      (match p.bit with
        | some (j, b) => if p.err then u else u.setMemberBit g m j.val b.val
        | none => u).answer (some g) 0

/-! ### The parameter block (R256) -/

structure XParam where
  me : Nat
  p : Nat
  osp : Bool
  isp : Bool
  map1 : Bool
  v : Nat
  u : Nat
  fmt : Nat
  g : List Nat
  ibase : Nat
  obase : Nat
  rbase : Nat
  bar : Nat
  sbar : Nat
  sb : Nat
deriving DecidableEq, Repr
def xparam (t : Vector Word 16) : XParam :=
  let w := setWord t
  ⟨bits (w 0) 48 16, bits (w 0) 32 16, bit (w 0) 15, bit (w 0) 14, bit (w 0) 13, bits (w 0) 10 2, bits (w 0) 8 2, bits (w 0) 0 5,
    (List.range 4).map fun i => bits (w 1) (16 * i) 16, w 2, w 3, bits (w 4) 0 16, w 5, w 6, w 7⟩
/-- Element size of a format code that a transpose accepts (R33, R256). -/
def elemSize : Nat → Option Nat
  | 0x00 => some 8 | 0x01 => some 4 | 0x02 => some 2 | 0x03 => some 2 | 0x04 => some 1 | 0x05 => some 2 | 0x06 => some 4 | 0x07 => some 8
  | 0x08 => some 1 | 0x09 => some 2 | 0x0A => some 4 | 0x0B => some 8 | 0x0F => some 8 | 0x10 => some 16 | 0x16 => some 1 | _ => none
def XParam.z (x : XParam) : Nat := (elemSize x.fmt).getD 1
def ceilDiv (a b : Nat) : Nat := (a + b - 1) / b
/-- Lo and Len (R258). -/
def xLo (q c n : Nat) : Nat := min (q * c) n
def xLen (q c n : Nat) : Nat := min ((q + 1) * c) n - min (q * c) n
def XParam.gd (x : XParam) (d : Nat) : Nat := x.g.getD d 1
def XParam.cu (x : XParam) : Nat := ceilDiv (x.gd x.u) x.p
def XParam.cv (x : XParam) : Nat := ceilDiv (x.gd x.v) x.p
/-- The extents of the issuer's input slab, and of rank q's output slab (R258). -/
def XParam.ein (x : XParam) : List Nat := x.g.set x.u (xLen x.me x.cu (x.gd x.u))
def XParam.eout (x : XParam) (q : Nat) : List Nat := x.g.set x.v (xLen q x.cv (x.gd x.v))
/-- Lin (R256). -/
def lin (x e : List Nat) : Nat :=
  let a (i : Nat) := x.getD i 0
  let b (i : Nat) := e.getD i 1
  a 0 + b 0 * (a 1 + b 1 * (a 2 + b 2 * a 3))
def prod4 (e : List Nat) : Nat := e.foldl (· * ·) 1

/-- The consumer task's core for rank q of map 0 (R259). -/
def State.rankCore (s : State) (d : DieId) (l : Option Launch) (x : XParam) (q : Nat) : Option CoreId :=
  match l with
  | none => none
  | some l => (l.chan (x.rbase + q)).bind fun ch => s.taskCore d l ch.cons

/-- XPOSE_PARAM does not apply (R256, R257, R394). -/
def State.xposeOk (s : State) (c : CoreId) (t : Vector Word 16) : Bool :=
  let w := setWord t
  let x := xparam t
  let l := s.launchOf c s.issue.ctx
  bits (w 0) 16 16 == 0 && !bit (w 0) 12 && bits (w 0) 5 3 == 0 && (elemSize x.fmt).isSome && x.u != x.v && decide (1 ≤ x.p ∧ x.p ≤ 4096 ∧ x.me < x.p) &&
    x.g.all (· != 0) && decide (w 4 < 2 ^ 16) && bits (w 7) 16 47 == 0 && decide (bits (w 7) 0 12 + x.p ≤ 4096) && ((List.range 7).all fun i => w (8 + i) == 0) &&
    barFieldOk x.bar && barFieldOk x.sbar &&
    (if x.map1 then
      !x.osp && bits x.bar 0 21 == 0 &&
        (match (s.die c.die).group x.rbase with | some g => decide (x.p ≤ g.members.length) && s.rankOf g c == some x.me | none => false)
    else decide (x.rbase + x.p ≤ 1024) && (List.range x.p).all fun q => match l with | some l => (l.chan (x.rbase + q)).isSome | none => false)

/-- The first scratchpad extent outside, and the first virtual extent beyond (R257). -/
def XParam.outside (x : XParam) : Option Nat :=
  let inB := x.z * prod4 x.ein
  let outB := x.z * prod4 (x.g.set x.v x.cv)
  if !x.isp ∧ 0 < inB ∧ spadSize < x.ibase + inB then some x.ibase
  else if !x.map1 ∧ !x.osp ∧ spadSize < x.obase + outB then some x.obase
  else if bit x.bar 63 ∧ 0x1FFFFF < bits x.bar 0 21 + 15 then some (bits x.bar 0 21)
  else if bit x.sbar 63 ∧ 0x1FFFFF < bits x.sbar 0 21 + 15 then some (bits x.sbar 0 21)
  else none
def XParam.beyond (x : XParam) : Option Nat :=
  let far (a n : Nat) := 0 < n ∧ 2 ^ 55 < a + n
  if x.isp ∧ far x.ibase (x.z * prod4 x.ein) then some x.ibase
  else if !x.map1 ∧ x.osp ∧ far x.obase (x.z * prod4 (x.g.set x.v x.cv)) then some x.obase
  else none

/-- R257. -/
def execXpose (g : Guard) (s : State) : Out :=
  runSlot g s fun s => do
    let t := s.me.eng2.active
    let x := xparam t
    require (!s.my.grd || (!x.map1 && x.p == 1 && !x.osp && s.rankCore s.issue.core.die (s.launchOf s.issue.core s.issue.ctx) x 0 == some s.issue.core))
      Code.guardForbidden 0
    require (s.xposeOk s.issue.core t) Code.xposeParam 0
    failAt x.outside Code.scratchRange
    failAt x.beyond Code.vaRange
    failAt (if x.ibase % min x.z 8 ≠ 0 then some x.ibase else if x.obase % min x.z 8 ≠ 0 then some x.obase else none) Code.memAlign
    .ok (s.enqueueCommand ⟨0, .xpose, false, s.issue.ctx, t, 0, 0, 0, 0, 0, 0, [], [], false, none, 0, [], []⟩ x.isp)

/-! ### Serving a rank (R258 to R260) -/

/-- The global indices that go from the issuer to rank q, dimension 0 fastest. -/
def XParam.indices (x : XParam) (q : Nat) : List (List Nat) :=
  let rng (d : Nat) : List Nat :=
    if d = x.u then (List.range (xLen x.me x.cu (x.gd d))).map (· + xLo x.me x.cu (x.gd d))
    else if d = x.v then (List.range (xLen q x.cv (x.gd d))).map (· + xLo q x.cv (x.gd d))
    else List.range (x.gd d)
  (rng 3).flatMap fun g3 => (rng 2).flatMap fun g2 => (rng 1).flatMap fun g1 => (rng 0).map fun g0 => [g0, g1, g2, g3]
/-- Source and destination byte offsets of one element (R258). -/
def XParam.offsets (x : XParam) (q : Nat) (g : List Nat) : Nat × Nat :=
  (lin (g.set x.u (g.getD x.u 0 - xLo x.me x.cu (x.gd x.u))) x.ein * x.z, lin (g.set x.v (g.getD x.v 0 - xLo q x.cv (x.gd x.v))) (x.eout q) * x.z)

/-- The scoreboard bit that a command sets at each rank (R256). -/
def XParam.sbBit (x : XParam) : Option (Nat × Nat) := if bit x.sb 63 then some (bits x.sb 12 4, bits x.sb 0 12 + x.me) else none
/-- One element written to rank q. -/
def State.putRank (s : State) (c : CoreId) (q : Command) (x : XParam) (rank off : Nat) (b : List Byte) : Except EngErr State :=
  let launch := s.cmdLaunch c q
  if x.map1 then
    match (s.die c.die).group x.rbase with
    | none => .ok s
    | some g =>
      match g.members[rank]? with
      | none => .ok s
      | some w =>
        let m := memberOf w
        match s.writeMember g m launch (if bit x.bar 63 && m.en then [m.bar] else []) x.sbBit (memberAddr m x.obase + off) b with
        | .ok u => .ok (u.unseen s c .xpose)
        | .error e => .error (.absent e)
  else if x.osp then s.virtStore c q.ctx (some (q.tag, rank)) (s.engAsid c q.ctx) false (pieces (x.obase + off) b.length 2) b
  else
    match s.rankCore c.die (s.launchOf c q.ctx) x rank with
    | none => .ok s
    | some k => .ok ((s.deliverColl k launch (if bit x.bar 63 then [bits x.bar 0 21] else []) x.sbBit (x.obase + off) b).unseen s c .xpose)

/-- The physical ranges of this package that the output slab of rank q takes (R259). -/
def State.rankRanges (s : State) (c : CoreId) (q : Command) (x : XParam) (rank : Nat) : List (Nat × Nat) :=
  let n := x.z * prod4 (x.eout rank)
  if x.map1 then
    match ((s.die c.die).group x.rbase).bind fun g => g.members[rank]? with
    | some w => if s.isOwn (memberOf w) then [(s.localPa (memberAddr (memberOf w) x.obase), n)] else []
    | none => []
  else if x.osp then s.sideRanges c q true x.obase n
  else match s.rankCore c.die (s.launchOf c q.ctx) x rank with
    | some k => [(spadBase k + x.obase, n)]
    | none => []
/-- What makes an element of a transpose open (R251, R258): the writes of other paths, its input slab, and its output slabs where they meet that. -/
structure XOpen where
  dirty : List (Nat × Nat)
  input : List (Nat × Nat)
  output : List (Nat × Nat)
deriving DecidableEq, Repr
def State.xOpen (s : State) (c : CoreId) (q : Command) (x : XParam) : XOpen :=
  let input := s.sideRanges c q x.isp x.ibase (x.z * prod4 x.ein)
  ⟨s.dirtyRanges c q, input, ((List.range x.p).flatMap (s.rankRanges c q x)).filter fun r => rangesMeet [r] input⟩
/-- The ranges of one element of a slab, of the slab's ranges: an element lies at its offset in the first range that holds it. -/
def atOff (off n : Nat) : List (Nat × Nat) → List (Nat × Nat)
  | [] => []
  | (a, m) :: t => if off < m then (a + off, min n (m - off)) :: (if m < off + n then atOff 0 (off + n - m) t else []) else atOff (off - m) n t
/-- The elements of a rank moved one after another. An element whose source another path has written, or whose source or place lies where input and output
overlap, holds any value (R251). -/
def State.moveRank (s : State) (c : CoreId) (q : Command) (x : XParam) (o : XOpen) (rank : Nat) : List (List Nat) → Except EngErr State
  | [] => .ok s
  | g :: rest => do
    let (so, dof) := x.offsets rank g
    let (b, s) ← s.cmdFetch c q x.isp false (x.ibase + so) x.z
    let src := atOff so x.z o.input
    let isOpen := rangesMeet src o.dirty || (!o.output.isEmpty && (rangesMeet src o.output || rangesMeet (atOff dof x.z (s.rankRanges c q x rank)) o.input))
    let b := if isOpen then leBytes x.z (Config.freeBits (8 * x.z) s.tick (600000 + so)).toNat else b
    let s ← s.putRank c q x rank dof b
    s.moveRank c q x o rank rest

/-- The group and the member entry of a rank of map 1. -/
def State.rankMember (s : State) (c : CoreId) (x : XParam) (rank : Nat) : Option (GroupCopy × Vector Word 4) :=
  ((s.die c.die).group x.rbase).bind fun g => (g.members[rank]?).map fun w => (g, w)
/-- The arrival at a rank (R258, R260). -/
def State.arriveRank (s : State) (c : CoreId) (q : Command) (x : XParam) (rank : Nat) (fail : Bool) : State :=
  if !bit x.bar 63 then s
  else if x.map1 then
    match s.rankMember c x rank with
    | none => s
    | some (g, w) => s.arriveMember g (s.cmdLaunch c q) (memberOf w) fail
  else
    match s.rankCore c.die (s.launchOf c q.ctx) x rank with
    | none => s
    | some k => s.updateBarrier k (s.cmdLaunch c q) (bits x.bar 0 21) (if fail then .arriveErr else .arrive) 1
/-- The scoreboard bit at a rank (R258). -/
def State.bitRank (s : State) (c : CoreId) (x : XParam) (rank : Nat) : State :=
  if !bit x.sb 63 then s
  else if x.map1 then
    match s.rankMember c x rank with
    | none => s
    | some (g, w) => s.setMemberBit g (memberOf w) (bits x.sb 12 4) (bits x.sb 0 12 + x.me)
  else s.setBoardRange c.die (bits x.sb 12 4) (bits x.sb 0 12 + x.me) 1 false

/-- A transpose ends: what it has written in this package of source bytes that another path has written since its commit holds any value (R251, R258;
assumption 20). -/
def State.openXpose (s : State) (c : CoreId) (q : Command) : State :=
  let x := xparam q.set
  let o := s.xOpen c q x
  if !rangesMeet o.input o.dirty then s
  else (q.served.filter fun r => decide (r < x.p)).foldl (fun t r => (x.indices r).foldl (fun t g =>
    let (so, dof) := x.offsets r g
    if !rangesMeet (atOff so x.z o.input) o.dirty then t
    else (atOff dof x.z (s.rankRanges c q x r)).foldl (fun t (pa, n) =>
      match regionClass pa with
      | some .peer | some .remote => t
      | _ => t.writeBy false false pa (leBytes n (Config.freeBits (8 * n) s.tick (650000 + pa)).toNat)) t) t) s
/-- A transpose ends with an error or a kill: every rank not served and not absent gets its arrival with the error flag, and so does SBAR (R252, R260). -/
def State.failXpose (s : State) (c : CoreId) (q : Command) (code : Nat) : State :=
  let x := xparam q.set
  let s := ((s.openXpose c q).dropCommand c q.tag).mapCore c fun k => k.setErr .xpose code
  let s := ((List.range x.p).filter fun r => !q.served.contains r).foldl (fun s r => s.arriveRank c q x r true) s
  s.barUpdate c q x.sbar .arriveErr 1

/-- Every write to a rank has been performed: its arrival and its bit are made (R258). -/
def State.rankDone (s : State) (c : CoreId) (k : Command) (rank : Nat) : State :=
  let x := xparam k.set
  ((s.mapCore c fun y => y.mapCommand k.tag fun z => { z with served := rank :: z.served }).arriveRank c k x rank false).bitRank c x rank
/-- A rank is found absent (R260, R382). -/
def State.rankAbsent (s : State) (c : CoreId) (k : Command) (rank code : Nat) : State :=
  s.mapCore c fun y => y.mapCommand k.tag fun z => { z with served := rank :: z.served, err := code }
/-- A command of this package serves a rank: every element moves, then its arrival and its bit are made, at once unless other packages are still to acknowledge
(R226, R258); `gone` is the code of R382 when the rank is absent (R260). -/
def State.serveRank (s : State) (c : CoreId) (tag : BitVec 32) (q : Nat) (gone : BitVec 8) : State :=
  match (s.core c).command tag with
  | none => s
  | some k =>
    let x := xparam k.set
    if k.eng != .xpose || k.stopped || (s.core c).halted || (s.core c).awaitsAck tag || decide (x.p ≤ q) || k.served.contains q then s
    else if x.map1 && gone != 0 then
      (match s.rankMember c x q with | some (g, w) => s.answerFails g (memberOf w) gone | none => s).rankAbsent c k q gone.toNat
    else
      match s.moveRank c k x (s.xOpen c k x) q (x.indices q) with
      | .ok u => s.orStall (if (u.core c).awaitsAck tag then u else u.rankDone c k q) (x.map1 || x.osp) c k.ctx
      | .error .stand => s
      | .error (.walk va) => s.stopCommand c k va
      | .error (.absent e) => s.rankAbsent c k q e
      | .error (.code e) => s.failXpose c k e
/-- XPOSE_RANK_SERVED (R258, R260, R394). -/
def execXposeRankServed (x : RankServed) (tag : BitVec 32) (q : Nat) (gone : BitVec 8) (s : State) : Out :=
  match x with
  | .own c => .next (s.serveRank c tag q gone)
  | .other p => .next (s.packetArrives false p)
/-- XPOSE_SEND_COMPLETE: once every rank is served, the arrival at SBAR (R251, R258, R260). -/
def execXposeSendComplete (c : CoreId) (tag : BitVec 32) (s : State) : Out :=
  match (s.core c).command tag with
  | none => .next s
  | some k =>
    let x := xparam k.set
    if k.eng != .xpose || k.stopped || (s.core c).halted || !(List.range x.p).all fun r => k.served.contains r then .next s
    else
      let s := (s.openXpose c k).dropCommand c tag
      .next ((if k.err = 0 then s else s.mapCore c fun y => y.setErr .xpose k.err).barUpdate c k x.sbar (if k.err = 0 then .arrive else .arriveErr) 1)

end Sys2Proof.Machine
end

