-- ==== Sys2Proof/Machine/Collective.lean ====
section
/-!
DEFINITION. Sys2Proof/Machine/Collective.lean: `mcred` and `mcst` (R384 to R393), the router's combining entries (R296, R297, R391), the deliveries at
members, and what other packages ask of this one (R380, R388).
-/
namespace Sys2Proof.Machine

def collParam : Nat := 0x40
def groupInactive : Nat := 0x41
def notMember : Nat := 0x42

/-! ### The descriptor (R384, R385) -/

structure CollDesc where
  gidx : Nat
  sbidx : Nat
  sben : Bool
  ben : Bool
  alg : Nat
  dmode : Nat
  op : Nat
  ifmt : Nat
  afmt : Nat
  ofmt : Nat
  sbfirst : Nat
  soff : Nat
  doff : Nat
  bar : Nat
deriving DecidableEq, Repr
def collDesc (d : Vector Word 4) : CollDesc :=
  let w (i : Nat) := (d.toList.getD i 0).toNat
  ⟨bits (w 0) 48 10, bits (w 0) 40 4, bit (w 0) 39, bit (w 0) 38, bits (w 0) 36 2, bits (w 0) 34 2, bits (w 0) 32 2, bits (w 0) 22 5, bits (w 0) 17 5,
    bits (w 0) 12 5, bits (w 0) 0 12, bits (w 1) 0 41, bits (w 2) 0 41, w 3⟩
/-- The format combinations that `mcred` accepts (R385): R385 lists no saturating type, although R53 speaks of them for fabric collectives, and the integer
formats are refused with COLL_PARAM. Assumption 70. -/
def CollDesc.formatsOk (d : CollDesc) : Bool :=
  (d.ifmt == 0 && d.afmt == 0 && d.ofmt == 0) || (d.ifmt == 1 && d.afmt == 1 && d.ofmt == 1) ||
    ((d.ifmt == 2 || d.ifmt == 3) && d.afmt == 1 && (d.ofmt == 1 || d.ofmt == d.ifmt))
/-- The tests of a descriptor that need no group (R387, R393). -/
def collOk (v : Vector Word 4) (off : Nat) (reduce : Bool) : Bool :=
  let w (i : Nat) := (v.toList.getD i 0).toNat
  let d := collDesc v
  bits (w 0) 58 6 == 0 && bits (w 0) 44 4 == 0 && bits (w 0) 27 5 == 0 && decide (w 1 < 2 ^ 41) && decide (w 2 < 2 ^ 41) && d.alg != 3 &&
    decide (d.dmode < 2) && d.op != 3 && barFieldOk d.bar && decide (d.soff + off < 2 ^ 41 ∧ d.doff + off < 2 ^ 41) &&
    (if reduce then d.formatsOk
     else d.dmode == 1 && d.alg == 0 && d.op == 0 && d.ifmt == 0 && d.afmt == 0 && d.ofmt == 0 && d.soff == 0)
/-- The floating-point format of a code. -/
def fpCode (c : Nat) : FpFmt := if c = 0 then fp64 else if c = 1 then fp32 else if c = 2 then fp16 else bf16
/-- Number of elements of one operation (R385). -/
def CollDesc.count (d : CollDesc) : Nat := if d.ifmt = 0 then 32 else 64
/-- Bytes of a contribution and of a delivered result (R385). -/
def CollDesc.rowBytes (d : CollDesc) : Nat := d.count * ((fpCode d.ifmt).width / 8)
def CollDesc.outBytes (d : CollDesc) : Nat := d.count * ((fpCode d.ofmt).width / 8)

/-! ### Issue (R386, R387, R393) -/

/-- The checks of R387; the first failure is reported. -/
def State.collCheck (s : State) (a off : Word) (reduce : Bool) : Except Flt (Vector Word 4 × GroupCopy × Nat) := do
  let v : Vector Word 4 := Vector.ofFn fun i => BitVec.ofNat 64 (s.spadReadOn .core s.issue.core (a.toNat + 8 * i.val) 8)
  let d := collDesc v
  let inside := decide (a.toNat + 32 ≤ spadSize)
  require (!(s.my.grd && (!reduce || (inside && d.dmode == 1)))) Code.guardForbidden 0
  require (decide (a.toNat % 32 = 0)) Code.memAlign a
  require inside Code.scratchRange a
  require (!bit d.bar 63 || decide (bits d.bar 0 21 + 16 ≤ spadSize)) Code.scratchRange (BitVec.ofNat 64 (bits d.bar 0 21))
  require (collOk v off.toNat reduce) collParam 0
  match (s.die s.issue.core.die).group d.gidx with
  | none => .error ⟨groupInactive, 0, 0⟩
  | some g =>
    require (!d.sben || decide (d.sbfirst + g.members.length ≤ 4096)) collParam 0
    match s.rankOf g s.issue.core with
    | none => .error ⟨notMember, 0, 0⟩
    | some me => .ok (v, g, me)
/-- The rows of an `mcred` go by the ring (R390). -/
def ringOf (v : Vector Word 4) (g : GroupCopy) : Bool := (collDesc v).alg == 2 || ((collDesc v).alg == 0 && !g.combine && decide (64 < g.members.length))
/-- The descriptor is read by the core (R195, R384). -/
def State.readDesc (s : State) (a : Word) : State := (s.loadPoison 4 [(a.toNat, 32)]).touch [a.toNat]
/-- The operation starts; its number of the core's accesses is what its results wait for. -/
def State.startColl (s : State) (reduce : Bool) (v : Vector Word 4) (g : GroupCopy) (off : Word) (data : VWord) : State :=
  let o : CollOp := ⟨s.pkg.nextColl, s.issue.core, s.issue.ctx, s.issue.pc, pcPlus s.issue.pc s.issue.len, s.me.nextAcc, s.my.launch, reduce, (collDesc v).gidx, v, off, data, [], [], reduce && ringOf v g, none, 0, [], false, 0, [], false⟩
  (s.mapPkg fun p => { p with colls := p.colls ++ [o], nextColl := p.nextColl + 1 }).mapMe fun k => { k with nextAcc := k.nextAcc + 1 }
/-- A destination that the operation supplies, due 2,048 cycles after the issue (R386). -/
def State.awaitColl (s : State) (d : Dest) (acc : Nat) : State :=
  s.mapMe fun k => { k with inflight := k.inflight ++ [⟨s.issue.ctx, d, k.cycle, k.cycle + 2048, false, false, none, some acc, none, []⟩] }

/-- R386 to R388. -/
def execMcred (g : Guard) (d : VNum) (a : SReg) (b : Src) (s : State) : Out :=
  runSlot g s fun s => do
    let off := s.opB b
    let (v, gr, _) ← s.collCheck (s.opA a) off true
    let s := s.readDesc (s.opA a)
    let acc := s.me.nextAcc
    .ok (((s.startColl true v gr off 0).awaitColl (.v d) acc).awaitColl (.s ⟨(a.val + 1) % 64, Nat.mod_lt _ (by decide)⟩) acc)
/-- R393. -/
def execMcst (g : Guard) (d : VSrc) (a : SReg) (b : Src) (s : State) : Out :=
  runPopSlot g (srcPops d) s fun s => do
    let off := s.opB b
    let (v, gr, _) ← s.collCheck (s.opA a) off false
    .ok ((s.readDesc (s.opA a)).startColl false v gr off (s.vsrc d 2 0 32))

/-! ### The fabric side -/

def State.coll (s : State) (id : Nat) : Option CollOp := s.pkg.colls.find? fun o => o.id == id
def State.mapColl (s : State) (id : Nat) (f : CollOp → CollOp) : State :=
  s.mapPkg fun p => { p with colls := p.colls.map fun o => if o.id = id then f o else o }
/-- The group copy of an operation, kept active while it runs (R295). -/
def State.collGroup (s : State) (o : CollOp) : Option GroupCopy := (s.die o.core.die).group o.group
/-- One step of the canonical sum (R388). -/
def collStep (f : FpFmt) (op : Nat) (r x : Nat) : Nat := if op = 0 then fpAdd f r x else if op = 1 then fpMin f r x else fpMax f r x
/-- The elements of a contribution in the accumulation format (R388). -/
def CollDesc.take (d : CollDesc) (row : VWord) : List Nat :=
  (splitW (fpCode d.ifmt).width d.count row.toNat).map fun x => fpCvt (fpCode d.ifmt) (fpCode d.afmt) .rn x
/-- A prefix with one more contribution. -/
def CollDesc.fold (d : CollDesc) (pre : List Nat) (row : VWord) : List Nat := (pre.zip (d.take row)).map fun (r, x) => collStep (fpCode d.afmt) d.op r x
/-- A prefix as kept in an entry: its elements, of the accumulation format's width. -/
def CollDesc.keep (d : CollDesc) (xs : List Nat) : VWord := BitVec.ofNat 2048 (joinW (fpCode d.afmt).width xs)
def CollDesc.unkeep (d : CollDesc) (v : VWord) : List Nat := splitW (fpCode d.afmt).width d.count v.toNat
/-- The sum of all contributions in rank order (R54, R388), continued from the entry's prefix (R391). -/
def CollOp.sum (o : CollOp) (p : Nat) : List Nat :=
  let d := collDesc o.desc
  let (next, pre) := match o.entry with
    | some (n, v) => (n, d.unkeep v)
    | none => (1, d.take ((o.rows.lookup 0).getD 0))
  (List.range (p - next)).foldl (fun r i => d.fold r ((o.rows.lookup (next + i)).getD 0)) pre
/-- The lanes of vD (R385) and the delivered bytes, of a list of elements of the result format. -/
def CollDesc.lanes (d : CollDesc) (xs : List Nat) : VWord := BitVec.ofNat 2048 (joinW (if d.ofmt = 0 then 64 else 32) xs)
def CollDesc.outRow (d : CollDesc) (xs : List Nat) : List Byte := leBytes d.outBytes (joinW (fpCode d.ofmt).width xs)

/-- The send barrier's arrival, and the end of the operation (R388, R393). -/
def State.finishColl (s : State) (o : CollOp) : State :=
  let d := collDesc o.desc
  let s := s.mapPkg fun p => { p with colls := p.colls.filter fun x => x.id != o.id }
  (if bit d.bar 63 then s.updateBarrier o.core o.launch (bits d.bar 0 21) (if o.dfail || !o.absent.isEmpty then .arriveErr else .arrive) 1 else s).wake o.core

/-- The results of an `mcred` become known (R388). -/
def State.answerColl (s : State) (o : CollOp) (p : Nat) : State :=
  let d := collDesc o.desc
  let first := (List.range p).findSome? fun q => (o.absent.lookup q).map fun c => (q, c)
  let (xs, st) : List Nat × Nat := match first with
    | some (q, c) => (List.replicate d.count (fpCode d.ofmt).nanBits, q * 2 ^ 32 + c)
    | none => ((o.sum p).map fun r => fpCvt (fpCode d.afmt) (fpCode d.ofmt) .rn r, 0)
  let s := s.mapCore o.core fun k => { k with
    inflight := k.inflight.map fun e => if e.acc = some o.acc then { e with acc := none, val := some (match e.dest with | .v _ => d.lanes xs | _ => BitVec.ofNat 2048 st) } else e }
  let o' := { o with answered := true, entry := none, result := BitVec.ofNat 2048 (joinW (fpCode d.ofmt).width xs) }
  if d.dmode = 1 then s.mapColl o.id fun _ => o' else s.finishColl o'

/-- Combining entries in use (R296). -/
def State.entriesUsed (s : State) : Nat := s.pkg.colls.countP fun o => o.entry.isSome && !o.ring
/-- The home router combines the operation's rows (R390, R391). -/
def CollOp.combines (o : CollOp) (g : GroupCopy) : Bool := g.combine && !o.ring
/-- The ring's next prefix (R390): a member of this package adds its row to the prefix of the ranks before; from another package comes the prefix. -/
def CollOp.ringRow (o : CollOp) (rank : Nat) (own : Bool) (row : VWord) : CollOp :=
  let d := collDesc o.desc
  match o.entry with
  | some (_, pre) => { o with entry := some (rank + 1, if own then d.keep (d.fold (d.unkeep pre) row) else row) }
  | none => if rank = 0 then { o with entry := some (1, if own then d.keep (d.take row) else row) } else o

/-- A row reaches the home router: it joins the entry's prefix, or passes uncombined to the home endpoint (R296, R297, R391). When rank 0 finds no entry free,
RCTSTAT counts every row of the operation, those before it too (R297, R395), on the die of the issuing core: assumption 91. -/
def State.routeRow (s : State) (o : CollOp) (g : GroupCopy) (rank : Nat) (row : VWord) : State × CollOp :=
  let d := collDesc o.desc
  let pass : CollOp := { o with rows := (rank, row) :: o.rows }
  if !o.combines g then (s, pass)
  else
    match o.entry with
    | some (next, pre) => if rank = next then (s, { o with entry := some (next + 1, d.keep (d.fold (d.unkeep pre) row)) }) else (s, pass)
    | none =>
      if rank = 0 ∧ s.entriesUsed < 8192 then (s, { o with entry := some (1, d.keep (d.take row)) })
      else if rank = 0 ∨ (o.rows.lookup 0).isSome then
        (s.mapDie o.core.die fun y => { y with uncombined := y.uncombined + BitVec.ofNat 32 (if rank = 0 then o.rows.length + 1 else 1) }, pass)
      else (s, pass)
/-- Every rank is known once its row has arrived or it is absent. -/
def CollOp.arrived (o : CollOp) : Nat := o.passed + o.absent.length

/-- Of the writes of a core, those that a row read on the COLL path is not ordered after (R228): for an operation of this package, what its issuer has not
synchronised with by an acquire before its issue (R222, R389); the packet of another package tells of no acquire. -/
def State.rowOpen (s : State) (o : Option CollOp) (k : CoreId) : List Fresh :=
  match o with
  | some o => s.openTo o.core o.ctx o.acc .coll k ((s.core k).storing k ++ (s.core k).recent)
  | none => (s.core k).openFor k .coll
/-- The writes that a row read at `pa` is not ordered after: those of the core whose scratchpad it is, and of the member's core (R228). -/
def State.collFresh (s : State) (o : Option CollOp) (m : Member) (pa : Nat) : List Fresh :=
  let own := s.rowOpen o m.core
  if h : 0x010000000000 ≤ pa ∧ (pa - 0x010000000000) / 0x200000 < 512 then
    let k : CoreId := ⟨(pa - 0x010000000000) / 0x200000, h.2⟩
    if k = m.core then own else s.rowOpen o k ++ own
  else own
/-- The row of a member of this package, or the code that makes it absent (R294, R382); each of its 8-byte units has its old or its new value where nothing
orders a write before the read (R228, R389). -/
def State.memberRow (s : State) (o : Option CollOp) (m : Member) (off bytes : Nat) : Except Nat VWord :=
  let pa := s.localPa (memberAddr m off)
  if !s.rangeAssigned (memberAddr m off) bytes then .error errUnmapped
  else if s.poison.any fun u => overlaps u 8 pa bytes then .error errPoison
  else .ok (BitVec.ofNat 2048 (s.mixed m.core .coll (meeting (s.collFresh o m pa) pa bytes) pa bytes (s.memRead pa bytes)))
/-- An earlier acquire of the issuing context has not returned, so that no row is read yet (R389). -/
def State.collWaits (s : State) (o : CollOp) : Bool := (s.core o.core).accesses.any fun a => a.ctx == o.ctx && a.acq && decide (a.id < o.acc)
/-- An absence, detected at any point, releases the entry (R391). -/
def CollOp.lose (o : CollOp) (rank code : Nat) : CollOp :=
  { o with absent := if (o.absent.lookup rank).isSome then o.absent else (rank, code) :: o.absent, entry := none }
/-- The row of a member of another package is asked for; by the ring the prefix goes there (R390). -/
def State.askRow (s : State) (o : CollOp) (g : GroupCopy) (m : Member) (rank off : Nat) : State :=
  let d := collDesc o.desc
  if o.ring then
    let pre : VWord := (o.entry.map (·.2)).getD 0
    s.sendGroup g (leBytes 256 pre.toNat) fun t b =>
      .rowRequest m.pkg rank off d.rowBytes (some ⟨BitVec.ofNat 2 d.op, BitVec.ofNat 5 d.ifmt, BitVec.ofNat 5 d.afmt, BitVec.ofNat 2048 (leNat b)⟩) t
  else s.sendGroup g [] fun t _ => .rowRequest m.pkg rank off d.rowBytes none t
/-- ROUTER_CONTRIBUTION (R296, R388, R390): the row of one rank arrives, by a ring the prefix up to it, or the rank is found absent: with the code of `gone`, or
because its packet does not authenticate (R383). The row of a member of this package is the one that CONTRIBUTION_READ has read, or is read now. -/
def execRouterContribution (id rank : Nat) (row : VWord) (gone : RowPassage) (s : State) : Out :=
  match s.coll id with
  | none => .next s
  | some o =>
    match s.collGroup o with
    | none => .next s
    | some g =>
      match g.members[rank]? with
      | none => .next s
      | some w =>
        let m := memberOf w
        let d := collDesc o.desc
        let own := s.isOwn m
        if !o.reduce || o.answered || o.served.contains rank || (o.ring && rank != o.served.length) || s.collWaits o then .next s
        else
          let off := d.soff + o.off.toNat
          let bad := g.isSealed && !own && !gone.genuine
          let read : Except Nat VWord :=
            if own then (match o.readRows.lookup rank with | some v => .ok v | none => s.memberRow (some o) m off d.rowBytes)
            else if bad then .error errSealFail
            else if gone.code ≠ 0 then .error gone.code.toNat
            else .ok row
          let s := if own then s else s.askRow o g m rank off
          let s := if bad then s.mapPkg fun q => { q with sealfail := q.sealfail + 1 } else s
          let (s, o) : State × CollOp := match o.absent.lookup rank, read with
            | some c, _ => (s, o.lose rank c)
            | none, .error c => (s, o.lose rank c)
            | none, .ok v =>
              let (s, o) := if o.ring then (s, o.ringRow rank own v) else s.routeRow o g rank v
              (s, { o with passed := o.passed + 1 })
          let o := { o with served := rank :: o.served, entry := if o.absent.isEmpty then o.entry else none }
          .next (if o.arrived = g.members.length then (s.mapColl id fun _ => { o with served := [] }).answerColl { o with served := [] } g.members.length else s.mapColl id fun _ => o)

/-- The arrival and the bit of a member served, or its failed arrival (R388, R393). -/
def State.serveMember (s : State) (o : CollOp) (g : GroupCopy) (m : Member) (fail : Bool) : State :=
  let d := collDesc o.desc
  let s := if d.ben then s.arriveMember g o.launch m fail else s
  if fail || !d.sben then s else s.setMemberBit g m d.sbidx (d.sbfirst + (s.rankOf g o.core).getD 0)
/-- The bytes of a delivery to a member (R382, R388, R393). -/
def State.putMember (s : State) (o : CollOp) (g : GroupCopy) (m : Member) (b : List Byte) : Except Nat State :=
  let d := collDesc o.desc
  s.writeMember g m o.launch (if d.ben && m.en then [m.bar] else []) (if d.sben then some (d.sbidx, d.sbfirst + (s.rankOf g o.core).getD 0) else none)
    (memberAddr m (d.doff + o.off.toNat)) b
/-- One more member is served; the last one ends the operation. -/
def State.servedOne (s : State) (id q p : Nat) (f : CollOp → CollOp) : State :=
  match s.coll id with
  | none => s
  | some o =>
    let o := { f o with served := q :: o.served }
    let s := s.mapColl id fun _ => o
    if o.served.length = p then s.finishColl o else s

/-- The result of an `mcred` of this package with dmode = 1 reaches one member; in the absent branch each present member's barrier gets its arrival with the
error flag. `gone` is a failure at another package (R388). -/
def State.deliverResult (s : State) (id q : Nat) (gone : BitVec 8) : State :=
  match s.coll id with
  | none => s
  | some o =>
    match s.collGroup o with
    | none => s
    | some g =>
      match g.members[q]? with
      | none => s
      | some w =>
        if !o.reduce || !o.answered || o.served.contains q then s
        else
          let m := memberOf w
          let d := collDesc o.desc
          let p := g.members.length
          if !o.absent.isEmpty then
            (if (o.absent.lookup q).isSome || !d.ben then s else s.arriveMember g o.launch m true).servedOne id q p fun x => x
          else
            match (if gone = 0 then s.putMember o g m (leBytes d.outBytes o.result.toNat) else .error gone.toNat) with
            | .ok u => (u.serveMember o g m false).servedOne id q p fun x => x
            | .error _ => ((s.answerFails g m gone).serveMember o g m true).servedOne id q p fun x => { x with dfail := true }
/-- MEMBER_DELIVERY (R388). -/
def execMemberDelivery (x : Delivered) (q : Nat) (gone : BitVec 8) (s : State) : Out :=
  match x with
  | .own id => .next (s.deliverResult id q gone)
  | .other p => .next (s.packetArrives true p)

/-- The 256 bytes of an `mcst` of this package reach one member; an absent one receives nothing (R393). -/
def State.deliverCast (s : State) (id q : Nat) (gone : BitVec 8) : State :=
  match s.coll id with
  | none => s
  | some o =>
    match s.collGroup o with
    | none => s
    | some g =>
      match g.members[q]? with
      | none => s
      | some w =>
        if o.reduce || o.served.contains q then s
        else
          let m := memberOf w
          match (if gone = 0 then s.putMember o g m (leBytes 256 o.data.toNat) else .error gone.toNat) with
          | .ok u => (u.serveMember o g m false).servedOne id q g.members.length fun x => x
          | .error e => (s.answerFails g m gone).servedOne id q g.members.length fun x => { x with absent := (q, e) :: x.absent }
/-- MCST_DELIVERY (R393). -/
def execMcstDelivery (x : Delivered) (q : Nat) (gone : BitVec 8) (s : State) : Out :=
  match x with
  | .own id => .next (s.deliverCast id q gone)
  | .other p => .next (s.packetArrives false p)

/-! ### What other packages ask of this one -/

/-- What a member's package sends for a row: the row, or by a ring the prefix with the row added (R390). -/
def rowSent (r : ContribReq) (row : VWord) : VWord :=
  match r.ring with
  | none => row
  | some p =>
    let d : CollDesc := { collDesc (.replicate 4 0) with op := p.op.toNat, ifmt := p.ifmt.toNat, afmt := p.afmt.toNat }
    if r.rank = 0 then d.keep (d.take row) else d.keep (d.fold (d.unkeep p.sum) row)
/-- A row is asked for by another package: it is read at its home and sent, or the request is refused or answered with the code that makes the member absent
(R294, R382, R383, R388). -/
def State.rowAsked (s : State) (d : DieId) (r : ContribReq) : State :=
  match s.packetMember d r.gid r.digest r.genuine r.rank with
  | .error e => s.refuse e
  | .ok (g, m) =>
    match s.memberRow none m r.off.toNat r.bytes with
    | .error e => s.answer (some g) e
    | .ok v => s.sendGroup g (leBytes 256 (rowSent r v).toNat) fun t b => .row r.rank 0 (BitVec.ofNat 2048 (leNat b)) t
/-- A request is the one that an operation of this package makes for a member of this package. -/
def State.asksFor (s : State) (o : CollOp) (d : DieId) (r : ContribReq) : Bool :=
  let x := collDesc o.desc
  o.reduce && !o.answered && !o.served.contains r.rank && !s.collWaits o && o.core.die == d && r.off.toNat == x.soff + o.off.toNat && r.bytes == x.rowBytes &&
    (match s.collGroup o with
      | some g => g.gid == r.gid && g.digest == r.digest && (match g.members[r.rank]? with | some w => s.isOwn (memberOf w) | none => false)
      | none => false)
/-- The row of a member of this package is read for an operation of this package (R388, R391). -/
def CollOp.readRow (o : CollOp) (rank : Nat) (row : Except Nat VWord) : CollOp :=
  if (o.readRows.lookup rank).isSome || (o.absent.lookup rank).isSome then o
  else match row with
    | .ok v => { o with readRows := (rank, v) :: o.readRows }
    | .error e => o.lose rank e
/-- CONTRIBUTION_READ (R388, R294): the row is read at its home and goes to the home package, which is this one for its own operations. -/
def execContributionRead (d : DieId) (r : ContribReq) (s : State) : Out :=
  match r.own with
  | none => .next (s.rowAsked d r)
  | some id =>
    match s.coll id with
    | none => .next s
    | some o =>
      if !s.asksFor o d r then .next s
      else
        match (s.collGroup o).bind fun g => g.members[r.rank]? with
        | none => .next s
        | some w => .next (s.mapColl id fun o => o.readRow r.rank (s.memberRow (some o) (memberOf w) r.off.toNat r.bytes))

/-- The bytes of a load, or the old value and the new one of an atomic, of another package. -/
def remoteEffect (op : RemoteOp) (n m : Nat) : Option Nat :=
  let x (w : Word) := w.toNat % 2 ^ (8 * n)
  match op with
  | .load => none
  | .store w => some (x w)
  | .add w => some (amoNew .add n m (x w) 0)
  | .min w => some (amoNew .min n m (x w) 0)
  | .max w => some (amoNew .max n m (x w) 0)
  | .and w => some (amoNew .and n m (x w) 0)
  | .or w => some (amoNew .or n m (x w) 0)
  | .xor w => some (amoNew .xor n m (x w) 0)
  | .swap w => some (x w)
  | .cas c w => some (amoNew .cas n m (x w) c.toNat)
  | .fadd w => some (amoNew .fadd n m (x w) 0)
/-- REMOTE_ACCESS_ARRIVAL (R380): performed at its home die by a writer with no clock of its own (R216), or refused at once with a negative reply. A load or an
atomic that meets a poisoned unit changes nothing here, and its reply says so to the package whose core takes the fault (R195). Assumption 98. -/
def execRemoteAccessArrival (r : RemoteReq) (s : State) : Out :=
  let pa := r.off.toNat
  let n := r.size.val
  let stores := match r.op with | .store _ => true | _ => false
  if !s.assigned pa then .next (s.send (.reply true 0 none))
  else if !stores && s.poison.any fun u => overlaps u 8 pa n then .next (s.send (.poisonReply (BitVec.ofNat 64 pa)))
  else
    let m := s.memRead pa n
    let s' := match remoteEffect r.op n m with
      | some v => s.otherWrite pa (leBytes n v)
      | none => s
    .next (s'.send (.reply false (if stores then 0 else BitVec.ofNat 64 m) none))

end Sys2Proof.Machine
end

