-- ==== Sys2Proof/Machine/Tasks.lean ====
section
/-!
DEFINITION. Sys2Proof/Machine/Tasks.lean: `trig`, `grd.check`, `sig` and `wsig` (R114, R345, R347, R350); the end of a task: retirement, the outcomes of a
guard, kills (R17, R28, R232, R349, R374, R375), its context's return to Free, and the end of launches and graphs (R341 to R346).
-/
namespace Sys2Proof.Machine

/-! ### The visor's words (R328), in the order of its table -/

def visorTemp (unit bucket : Nat) : Nat := 32 * unit + bucket
def visorDroop (d : DieId) (f : Nat) : Nat := 512 + 4 * d.val + f
def visorDepth (d : DieId) (f b : Nat) : Nat := 520 + 16 * (4 * d.val + f) + b
/-- Units 0 to 5: scratchpads, cluster SRAMs, common memory, tags, instruction memories, mitten buffers; 6 to 13 the HBM stacks; 14 the second tier. -/
def visorCorrected (unit : Nat) : Nat := 648 + unit
def visorUncorrected (unit : Nat) : Nat := 663 + unit
def visorFreeze (d : DieId) (b : Nat) : Nat := 678 + 32 * d.val + b
/-- 0 to 63 the optical ports, 64 the bridge, 65 and 66 the host ports. -/
def visorRetrain (link : Nat) : Nat := 742 + link
/-- 0: `FREEZE_TIMEOUT`; 1: forced switches. -/
def visorWatchdog (d : DieId) (k : Nat) : Nat := 809 + 2 * d.val + k
def visorPower (k : Nat) : Nat := 813 + k
/-- A word of the visor grows and saturates (R328). -/
def State.visorAdd (s : State) (i n : Nat) : State :=
  s.mapPkg fun p => { p with visor := p.visor.setIfInBounds i (BitVec.ofNat 64 (min (2 ^ 64 - 1) ((p.visor.toList.getD i 0).toNat + n))) }

/-- A freeze ends: it is counted by its whole unbroken length (R328). -/
def State.countFreeze (s : State) (c : CoreId) : State :=
  match (s.core c).freeze with
  | none => s
  | some f => (if f.length = 0 then s else s.visorAdd (visorFreeze c.die (min 31 f.length.log2)) 1).mapCore c fun k => { k with freeze := none }
/-- A freeze ends with the wait of its bundle, and the walks of that bundle are forgotten (R206). -/
def State.endFreeze (s : State) (c : CoreId) : State := (s.countFreeze c).mapCore c fun k => { k with walked := [] }

/-! ### Triggers (R114, R345) -/

/-- A node whose tasks have all triggered counts for its successors (R345). -/
def Die.noteTriggers (d : Die) (l : Launch) : Die :=
  match l.node with
  | none => d
  | some (g, n) =>
    if l.trigged.length < l.tasks then d
    else { d with graphs := d.graphs.map fun y => if y.id = g then { y with nodes := y.nodes.modify n fun z => { z with trigged := true } } else y }
/-- A task of a launch triggers; a second trigger changes nothing (R114). -/
def State.trigger (s : State) (d : DieId) (launch task : Nat) : State :=
  let s := s.mapLaunch d launch fun l => if l.trigged.contains task then l else { l with trigged := task :: l.trigged }
  match (s.die d).launches.find? fun l => l.id == launch with
  | some l => s.mapDie d fun y => y.noteTriggers l
  | none => s
/-- R114, R345: a release at die scope, then the trigger; in a surrogate task no effect. -/
def execTrig (g : Guard) (s : State) : Out :=
  plainSlot g s fun s =>
    if s.my.grd then s
    else if s.unperformed .die then s.wait .fence
    else (s.mapMy fun y => { y with trigged := true }).trigger s.issue.core.die (s.my.launch.getD 0) s.my.task.toNat

/-- R350: the verdict; without a guard no effect. Assumption 41. -/
def execGrdCheck (g : Guard) (b : Src) (s : State) : Out :=
  plainSlot g s fun s =>
    if s.my.grd then
      let r := Fp.ofBits fp64 (s.opB b).toNat
      let t := Fp.ofBits fp64 (s.readSpec .tol 3).toNat
      s.mapIssue fun i => { i with verdict := some (!r.isNan && !t.isNan && r.abs.le t) }
    else s

/-! ### Signals (R347) -/

/-- `sig` and `sig.max`: the checks, the release, then the update at the home bank. -/
def sigSlot (g : Guard) (op : AmoOp) (a : SReg) (b : Src) (s : State) : Out :=
  runSlot g s fun s => do
    s.forbidGuarded
    let (pa, k) ← s.globalCheck (s.opA a) 8 nbopClass true
    .ok (if s.unperformed .pkg then s.wait .fence
      else s.issueAccess { s.newAccess (.amo op) 8 pa k with data := (s.opB b).setWidth 2048, points := [(4, s.tick)] })
/-- R347. Assumption 40. -/
def execSig (g : Guard) (a : SReg) (b : Src) (s : State) : Out := sigSlot g .add a b s
/-- R347. -/
def execSigMax (g : Guard) (a : SReg) (b : Src) (s : State) : Out := sigSlot g .umax a b s
/-- The word that a `wsig` reads, with the bytes over it that its task has buffered (R207), and the poison that it meets: a poisoned word is any word where
the buffer does not hold its bytes (R195). Assumption 87. -/
def State.signalWord (s : State) (a : Access) : Word × Option (Nat × BitVec 18 × BitVec 18) :=
  let bad := s.poisonAt a.pa 8
  (a.value (if bad.isSome then Config.freeBits 64 s.tick 825000 else BitVec.ofNat 64 (s.memRead a.pa 8)), bad)
/-- R347: the word is read as an acquire at package scope until it is at least the operand; the core is frozen meanwhile. The last read of a poisoned word
raises MEM_POISON as a load's does (R195). -/
def execWsig (g : Guard) (a : SReg) (b : Src) (s : State) : Out :=
  runSlot g s fun s => do
    let (pa, k) ← s.globalCheck (s.opA a) 8 nbopClass false
    let buf := if s.my.grd then s.me.buffered s.issue.ctx pa else (0, 0)
    let r := { s.newAccess (.load false) 8 pa k with acq := true, scope := 4, bufMask := buf.1, bufData := buf.2 }
    let (v, bad) := s.signalWord r
    .ok (if s.me.waitsFor s r || decide (v.toNat < (s.opB b).toNat) then s.wait .wsig
      else
        let t := ((s.stampAccess s.issue.core r (lineOf pa)).loadHears s.issue.core r).dropStale s.issue.core (!r.dieHomed)
        if bad.isSome then t.writeLoad .nothing 1024 0 bad [] else t)

/-! ### The end of a task -/

/-- An engine's sets when a context ends: a claim without a pending swap is released and its shadow set zeroed; a kill releases it in any case (R91). -/
def EngineRegs.endClaim (r : EngineRegs) (x : CtxId) (kill : Bool) : EngineRegs :=
  if (r.claim == some x || r.swap == some x) && (kill || r.swap.isNone) then { r with shadow := .replicate 16 0, claim := none, swap := none } else r
def engines : List Eng := [.copy, .xft, .xpose]
def Core.endClaims (k : Core) (x : CtxId) (kill : Bool) : Core := engines.foldl (fun k e => k.setEng e ((k.eng e).endClaim x kill)) k

/-- A field's registers. -/
def Die.mapField (d : Die) (f : Fin 4) (g : FieldMeter → FieldMeter) : Die := { d with fields := d.fields.set f.val (g d.fields[f]) f.isLt }
/-- A task's `.current` joins or leaves FDECL, which saturates (R325). Assumption 34. -/
def State.declare (s : State) (c : CoreId) (n : Nat) : State :=
  s.mapDie c.die fun d => d.mapField c.field fun m => { m with decl := BitVec.ofNat 16 (min 65535 (m.decl.toNat + n)) }
def State.undeclare (s : State) (c : CoreId) (n : Nat) : State :=
  s.mapDie c.die fun d => d.mapField c.field fun m => { m with decl := BitVec.ofNat 16 (m.decl.toNat - n) }

/-- The `.current` of the image that a context's task runs: the exact image's for an exact task (R336, R351). -/
def Launch.currentOf (l : Launch) (x : Ctx) : Nat := if l.isExact x then bits (l.xhead[3]).toNat 16 16 else l.current

/-- The launch sees a task end: its FIFOs are discarded (R265), and it counts as retired (R28). An exact task ends in place of its surrogate. -/
def Launch.endTask (l : Launch) (task : Nat) : Launch :=
  { l with
    retired := if l.retired.contains task then l.retired else task :: l.retired
    chans := l.chans.map fun h => if h.cons = task then { h with fifo := [] } else h }

/-- A pending pre-emption request ends with nothing saved once every context of the core has retired (R367). -/
def State.checkRequest (s : State) (c : CoreId) : State :=
  s.mapCore c fun k =>
    if k.pctlState = 1 ∧ ctxIds.all fun x => (k.ctx x).st == .free || (k.ctx x).st == .retired || (k.ctx x).st == .saved then { k with pctlState := 0 } else k

/-- What the end of a task does, whichever way it ends (R17, R28, R91, R265, R316, R320, R323, R325). -/
def State.endTask (s : State) (c : CoreId) (x : CtxId) (st : RetStatus) : State :=
  let y := s.ctx c x
  let l := s.launchOf c x
  let s := s.mapCtx c x fun y => { y with st := .retired, status := st, on_ := none, held := false, dbarPend := none, replay := none }
  let s := s.mapCore c fun k => { k.endClaims x (st == .killed) with running := if k.running = some x then none else k.running }
  let s := s.mapDie c.die fun d => { d with
    arms := d.arms.filter fun a => a.saved.isSome || !(a.core == c && a.ctx == x)
    batch := d.batch.filter fun p => p != (c, x)
    heldBatch := d.heldBatch.filter fun p => p != (c, x) }
  let s := match (s.core c).freeze with
    | some f => if f.ctx = x then s.endFreeze c else s
    | none => s
  let s := s.leaveDomains c y (st != .done)
  let s := match l with
    | some l => ((s.mapLaunch c.die l.id fun z => z.endTask y.task.toNat).undeclare c (l.currentOf y)).wakeAll (s.coresOf c.die l.id)
    | none => s
  (s.checkRequest c).wake c

/-! ### Guards (R231, R349, R351) -/

/-- One more in a guard counter, which saturates (R324). -/
def sat32 (v : Word32) : Word32 := if v = BitVec.allOnes 32 then v else v + 1
/-- An exact task is to be placed for a surrogate (R351). Assumption 32. -/
def Launch.sendExact (l : Launch) (task : Nat) : Launch := { l with exactTasks := l.exactTasks ++ [task], exactSent := l.exactSent + 1 }

/-- The bytes of a unit that a mask names, as runs: place and values. -/
def maskedRuns (mask : BitVec 8) (data : Word) : List (Nat × List Byte) :=
  (List.range 8).foldr (fun i l =>
    let x := BitVec.ofNat 8 (data.toNat / 256 ^ i)
    if !mask.getLsbD i then l
    else match l with
      | (j, b) :: t => if j = i + 1 then (i, x :: b) :: t else (i, [x]) :: l
      | [] => [(i, [x])]) []
/-- A drained unit is written at its home, or sent to another package (R231). -/
def State.drainUnit (s : State) (c : CoreId) (m : MittenEntry) : State :=
  (maskedRuns m.mask m.data).foldl (fun t (i, b) =>
    if regionClass m.pa = some .peer ∧ !t.peerOk m.pa then t else t.engStore c m.ctx none (m.policy == 0) (m.pa + i) b) s
/-- A guard commit of a context is not over: a unit of its drain is not performed at its home yet (R231). -/
def Core.committing (k : Core) (x : CtxId) : Bool := k.mittenDrain.any (fun m => m.ctx == x) || k.sent.any fun w => w.ctx == x && w.cmd.isNone
/-- Some of the units in the drain are written before the commit completes: any of them, but never the last one that is left (R231). -/
def State.drainSome (s : State) (c : CoreId) : State :=
  let early := ((s.core c).mittenDrain.zipIdx.filter fun (_, i) => Config.freeChoice s.tick (810000 + i)).map (·.1)
  if early.length = (s.core c).mittenDrain.length then s
  else (early.foldl (fun t m => t.drainUnit c m) s).mapCore c fun k => { k with mittenDrain := k.mittenDrain.filter fun m => !early.contains m }
/-- The units of a task leave the buffer for the drain, which begins (R231). -/
def State.startDrain (s : State) (c : CoreId) (x : CtxId) : State :=
  (s.mapCore c fun k => { k with
    mitten := k.mitten.filter fun m => m.ctx != x
    mittenDrain := k.mittenDrain ++ k.mitten.filter fun m => m.ctx == x }).drainSome c
/-- The buffer of a task is discarded (R231). -/
def State.discardBuffer (s : State) (c : CoreId) (x : CtxId) : State := s.mapCore c fun k => { k with mitten := k.mitten.filter fun m => m.ctx != x }

/-! ### What a kill abandons (R232, R252, R265) -/

/-- The transfers of a killed or discarded task (R232, R252, R265): its commands end with KILLED, its collectives are dropped, its loads end, each of its
unacknowledged stores is later performed or never, a channel's elements on their way arrive up to some point, the scratchpad stores of its committed bundle
remain, and nothing that it wrote is a member's any more (R229). -/
def State.abandonTask (s : State) (c : CoreId) (x : CtxId) : State :=
  let task := (s.ctx c x).task.toNat
  let s := s.putHeld c x
  let s := ((s.core c).copyq.filter fun q => q.ctx == x).foldl (fun t q => if q.eng = .xpose then t.failXpose c q errKilled else t.failCopy c q errKilled) s
  let s := s.mapPkg fun p => { p with colls := p.colls.filter fun o => !(o.core == c && o.ctx == x) }
  let s := s.mapCore c fun k => { k with
    accesses := k.accesses.filter fun a => a.ctx != x || (match a.kind with
      | .load _ => false
      | .store => a.performed || Config.freeChoice s.tick (820000 + a.id)
      | _ => true)
    inflight := k.inflight.filter fun e => e.ctx != x
    sent := k.sent.filter fun w => w.ctx != x }
  match (s.ctx c x).launch with
  | none => s
  | some l => (s.mapCore c fun k => k.disown x l task).mapLaunch c.die l fun z => { z with chans := z.chans.map fun h =>
      if h.prod = task then { h with transit := h.transit.take ((Config.freeBits 64 s.tick (830000 + h.idx)).toNat % (h.transit.length + 1)) } else h }

/-- The transform operation that a killed context started is abandoned: what is not yet written holds any value, as do the
outputs of each transform whose input another path wrote meanwhile (R179), and a pending swap takes effect (R180). -/
def State.abandonXft (s : State) (c : CoreId) (x : CtxId) : State :=
  match (s.core c).xft with
  | none => s
  | some o =>
    if o.ctx ≠ x then s
    else
      let p := (s.core c).eng1.active
      let s := (List.range (planB p - o.done)).foldl (fun t i => t.putTransform c p (o.done + i) (openElems p s.tick (o.done + i))) s
      let s := s.openOutputs c p o
      let s := (s.noteOutputs c x p).mapCore c fun k => { k with xft := none, eng1 := k.eng1.setStat (statWord false o.done) }
      match (s.core c).eng1.swap with
      | some y => s.mapCore c fun k => k.startXft y k.xftBehind
      | none => s

/-- A core's record is served: the freeze that it alone made ends with it (R354, R360). -/
def State.closeRecord (s : State) (c : CoreId) : State :=
  let s := match (s.core c).freeze with
    | some f => if f.cause = FreezeCause.record then s.endFreeze c else s
    | none => s
  s.endRecord c
/-- The record of a context that a kill or a discard ends is served (R374, R376). -/
def State.dropRecord (s : State) (c : CoreId) (x : CtxId) : State :=
  match (s.core c).record with
  | some r => if r.rcd.ctx = x then s.closeRecord c else s
  | none => s

/-- A surrogate task is discarded (R349), as for a kill, but a swap that it requested still takes place (R91): `ovfl` tells an overflow from a fault. Its exact
task counts before it leaves its domains (R351). Assumption 35. -/
def State.discardTask (s : State) (c : CoreId) (x : CtxId) (ovfl : Bool) : State :=
  let task := (s.ctx c x).task.toNat
  let launch := (s.ctx c x).launch.getD 0
  let s := (((s.dropRecord c x).discardBuffer c x).abandonTask c x).mapLaunch c.die launch fun l =>
    (if ovfl then { l with gOvfl := sat32 l.gOvfl } else { l with gFault := sat32 l.gFault }).sendExact task
  (s.endTask c x .discarded).abandonXft c x
/-- A surrogate task ends with `done` and its verdict (R349); an error that its commit finds in the buffer is a fault of the task (R407). -/
def State.guardDone (s : State) (c : CoreId) (x : CtxId) (pass : Bool) : State :=
  let task := (s.ctx c x).task.toNat
  let launch := (s.ctx c x).launch.getD 0
  if pass && (s.core c).mitten.any fun m => m.ctx == x && m.bad then s.discardTask c x false
  else if pass then
    let s := (s.startDrain c x).endTask c x .done
    let open_ := (s.core c).committing x
    let s := s.mapLaunch c.die launch fun l => { l with gPass := sat32 l.gPass, commits := l.commits + open_.toNat }
    if open_ then s else s.trigger c.die launch task
  else
    ((s.discardBuffer c x).mapLaunch c.die launch fun l => { l with gFail := sat32 l.gFail }.sendExact task).endTask c x .done

/-! ### Kill records (R375) -/

/-- The 8-byte units of unacknowledged stores, ascending, merged where they touch: base and length. -/
def mergeUnits : List Nat → List (Nat × Nat)
  | [] => []
  | u :: t =>
    match mergeUnits t with
    | (b, n) :: r => if b = u + 8 then (u, n + 8) :: r else (u, 8) :: (b, n) :: r
    | [] => [(u, 8)]
def insertUnit (u : Nat) : List Nat → List Nat
  | [] => [u]
  | v :: t => if u < v then u :: v :: t else if u = v then v :: t else v :: insertUnit u t
/-- The first 27 ranges and one that spans the rest, when there are more than 28; and whether there are. -/
def killRanges (r : List (Nat × Nat)) : List (Nat × Nat) × Bool :=
  if r.length ≤ 28 then (r, false)
  else
    let rest := r.drop 27
    let first := (rest.head?.map (·.1)).getD 0
    let last := (rest.getLast?.map fun p => p.1 + p.2).getD 0
    (r.take 27 ++ [(first, last - first)], true)
/-- The 512 bytes of a kill record (R375). -/
def killRecord (recPa : Nat) (task : Nat) (c : CoreId) (x : CtxId) (code : BitVec 8) (pc : Nat) (units : List Nat) : List Byte :=
  let (r, more) := killRanges (mergeUnits units)
  let w := [recPa, task + c.val * 2 ^ 32 + x.val * 2 ^ 48 + code.toNat * 2 ^ 56, pc, r.length + (if more then 2 ^ 63 else 0), 0, 0, 0, 0] ++
    r.flatMap fun (b, n) => [b, n]
  ((w.flatMap (leBytes 8)) ++ List.replicate 512 0).take 512
/-- A kill record is written, or dropped from a full ring, and the interrupt raised; with no ring nothing happens (R375). -/
def State.writeKill (s : State) (d : DieId) (b : List Byte) : State :=
  let y := s.die d
  let n := 2 ^ y.krLsize.toNat
  if y.krLsize = 0 then s
  else if (y.krTail - y.krHead).toNat = n then (s.mapDie d fun z => { z with krDrop := z.krDrop + 1 }).interrupt d 2
  else ((s.otherWrite (y.krbase.toNat + 512 * (y.krTail.toNat % n)) b).mapDie d fun z => { z with krTail := z.krTail + 1 }).interrupt d 2

/-- A KILL of a context that holds a task on a core (R374): a surrogate is discarded, any other task retires KILLED with its record. -/
def State.killTask (s : State) (c : CoreId) (x : CtxId) (code : BitVec 8) : State :=
  let y := s.ctx c x
  if y.st == .free || y.st == .retired || y.st == .saved then s
  else if y.grd then s.discardTask c x false
  else
    let units := ((s.core c).accesses.filter fun a => a.ctx == x && isStore a.kind).foldl (fun l a => insertUnit (a.pa / 8 * 8) l) []
    let recPa := ((s.launchOf c x).map (·.recPa)).getD 0
    let s := (((s.dropRecord c x).abandonTask c x).endTask c x .killed).abandonXft c x
    (s.mapLaunch c.die (y.launch.getD 0) fun l => { l with killed := l.killed + 1 }).writeKill c.die
      (killRecord recPa y.task.toNat c x code y.pc.toNat units)

/-! ### Graph progress (R343 to R346) -/

/-- The replay ranges of a graph: end node and first node (R343). -/
def Graph.ranges (g : Graph) : List (Nat × Nat) :=
  g.nodes.zipIdx.filterMap fun (n, e) => if bits n.w[3].toNat 0 32 = 0 then none else some (e, bits n.w[3].toNat 32 32)
def GNode.reps (n : GNode) : Nat := bits n.w[3].toNat 0 32
def Graph.node (g : Graph) (i : Nat) : Option GNode := g.nodes[i]?
/-- A range is in its last step. -/
def Graph.lastStep (g : Graph) (e : Nat) : Bool := match g.node e with | some n => n.step == n.reps | none => true
/-- A range put in order of size. -/
def insertRange (r : Nat × Nat) : List (Nat × Nat) → List (Nat × Nat)
  | [] => [r]
  | q :: t => if r.1 - r.2 ≤ q.1 - q.2 then r :: q :: t else q :: insertRange r t
/-- The ranges that contain a node, innermost first. -/
def Graph.around (g : Graph) (i : Nat) : List (Nat × Nat) := (g.ranges.filter fun (e, f) => decide (f ≤ i ∧ i ≤ e)).foldl (fun l r => insertRange r l) []
/-- The step of a node: that of its innermost range (R343). -/
def Graph.stepOf (g : Graph) (i : Nat) : Nat := match g.around i with | (e, _) :: _ => ((g.node e).map (·.step)).getD 0 | [] => 0
/-- A predecessor counts for a node (R343, R345). -/
def Graph.counts (g : Graph) (p n : Nat) : Bool :=
  match g.node p with
  | none => false
  | some y => (y.complete || (bit y.w[0].toNat 62 && y.trigged)) && (g.around p).all fun (e, f) => decide (f ≤ n ∧ n ≤ e) || g.lastStep e
/-- The nodes of a completed range start the next step; inner ranges start over (R343). -/
def Graph.restart (g : Graph) (e f : Nat) : Graph :=
  { g with nodes := g.nodes.zipIdx.map fun (n, i) =>
      if f ≤ i ∧ i ≤ e then { n with started := false, complete := false, trigged := false, step := if i = e then n.step + 1 else 0 } else n }
/-- After a node completes: the innermost completed range that has steps left starts its next one. -/
def Graph.advance (g : Graph) : List (Nat × Nat) → Graph
  | [] => g
  | (e, f) :: t =>
    if (g.nodes.zipIdx.all fun (n, i) => !(decide (f ≤ i ∧ i ≤ e)) || n.complete) then
      (if g.lastStep e then g.advance t else g.restart e f)
    else g
def Graph.finished (g : Graph) : Bool := g.nodes.all (·.complete) && g.ranges.all fun (e, _) => g.lastStep e
/-- No launch of the graph runs. -/
def Graph.quiet (g : Graph) (d : Die) : Bool := !(d.launches.any fun l => match l.node with | some (i, _) => i == g.id | none => false)

/-- The graph ends: its entry's words, then the interrupt (R346). -/
def State.endGraph (s : State) (d : DieId) (g : Graph) (node code : Nat) : State :=
  let s := s.otherWrite (g.entry + 24) (leBytes 8 (Config.freeBits 64 s.tick 840000).toNat)
  let s := s.otherWrite (g.entry + 16) (leBytes 8 (2 * 2 ^ 62 + node * 2 ^ 16 + code))
  let s := s.mapDie d fun y => { y with graphs := y.graphs.filter fun z => z.id != g.id }
  if g.irq then s.interrupt d 1 else s
/-- A graph ends when a node has failed and no launch of it runs, or when every node has completed its last step (R346). -/
def State.checkGraph (s : State) (d : DieId) (id : Nat) : State :=
  match (s.die d).graphs.find? fun g => g.id == id with
  | none => s
  | some g =>
    match g.failed with
    | some (n, c) => if g.quiet (s.die d) then s.endGraph d g n c else s
    | none => if g.finished then s.endGraph d g 0 1 else s
/-- A node's launch has ended with a code (R345, R346). Assumption 59. -/
def State.nodeEnded (s : State) (d : DieId) (node : Option (Nat × Nat)) (code : Nat) : State :=
  match node with
  | none => s
  | some (id, n) =>
    let s := s.mapDie d fun y => { y with graphs := y.graphs.map fun g =>
      if g.id ≠ id then g
      else
        let g := { g with nodes := g.nodes.modify n fun z => { z with complete := true, trigged := true } }
        if code ≠ 1 then { g with failed := some (g.failed.getD (n, code)) }
        else if g.failed.isSome then g else g.advance (g.around n) }
    s.checkGraph d id

/-! ### The end of a launch (R335, R341) -/

/-- A QTAIL write or a retirement ends the stalls of the die's `sigwait`s (R352). -/
def State.wakeHarts (s : State) (d : DieId) : State :=
  s.mapDie d fun y => { y with harts := y.harts.map fun h => if h.stall.isSome then { h with woken := true } else h }
/-- A launch leaves the die: its counters go (R321), and its node, if it has one, ends. -/
def State.dropLaunch (s : State) (d : DieId) (l : Launch) (code : Nat) : State :=
  ((s.mapDie d fun y => { y with launches := y.launches.filter fun z => z.id != l.id, counters := y.counters.filter fun k => k.launch != l.id }).wakeHarts d).nodeEnded
    d l.node code
/-- A launch ends before any task runs: state 2 and the code (R335). -/
def State.failLaunch (s : State) (d : DieId) (l : Launch) (code : Nat) : State :=
  (s.otherWrite (l.recPa + 160) (leBytes 8 (2 * 2 ^ 62 + code))).dropLaunch d l code
/-- Every task has reached Free and every guard commit has completed (R341, R351). -/
def Launch.over (l : Launch) : Bool :=
  l.checked && decide (l.groups ≤ l.nextGroup) && decide (l.tasks ≤ l.freed) && l.exactTasks.isEmpty && l.exactSent == l.exactFreed && l.commits == 0
/-- The launch retires: tend, the guard counters, the tag, then the state with the code; then the interrupt (R341). -/
def State.tryRetire (s : State) (d : DieId) (id : Nat) : State :=
  match (s.die d).launches.find? fun l => l.id == id with
  | none => s
  | some l =>
    if !l.over then s
    else
      let code := if l.killed = 0 then 1 else 2
      let s := s.otherWrite (l.recPa + 176) (leBytes 8 (Config.freeBits 64 s.tick 850000).toNat)
      let s := s.otherWrite (l.recPa + 184) (leBytes 8 (l.gPass.toNat + l.gFail.toNat * 2 ^ 32) ++ leBytes 8 (l.gOvfl.toNat + l.gFault.toNat * 2 ^ 32))
      let s := s.otherWrite (l.recPa + 200) (leBytes 8 l.tag.toNat)
      let s := s.otherWrite (l.recPa + 160) (leBytes 8 (2 * 2 ^ 62 + l.killed % 2 ^ 24 * 2 ^ 16 + code))
      (if l.irq then s.interrupt d 1 else s).dropLaunch d l code

/-- The commit of a context's guard ends when every drained store is performed at its home, and triggers its task (R231, R345). -/
def State.commitDone (s : State) (c : CoreId) (x : CtxId) : State :=
  if (s.core c).committing x then s
  else match (s.ctx c x).launch with
    | none => s
    | some l =>
      let s := (s.mapLaunch c.die l fun z => { z with commits := z.commits - 1 }).trigger c.die l (s.ctx c x).task.toNat
      (s.tryRetire c.die l).wakeAll (s.coresOf c.die l)
/-- GUARD_COMMIT_COMPLETE: the drained stores of a task that are still to come are performed, or sent; the commit is over when other packages have acknowledged
the last (R231). -/
def execGuardCommitComplete (c : CoreId) (x : CtxId) (s : State) : Out :=
  let mine := (s.core c).mittenDrain.filter fun m => m.ctx == x
  .next (if mine.isEmpty then s
    else ((mine.foldl (fun t m => t.drainUnit c m) s).mapCore c fun k => { k with mittenDrain := k.mittenDrain.filter fun m => m.ctx != x }).commitDone c x)

/-! ### Free (R17) -/

/-- A retired context may become Free: its results have landed and its transfers have completed or been abandoned (R17). -/
def State.canFree (s : State) (c : CoreId) (x : CtxId) : Bool :=
  let k := s.core c
  (k.ctx x).st == .retired && (k.inflight.all fun e => e.ctx != x || e.landed || e.dead) && !s.transfersOpen c x && (k.accesses.all fun a => a.ctx != x) &&
    (match k.xft with | some o => o.ctx != x | none => true) && k.eng1.swap != some x && (match k.mtx with | some m => m.ctx != x | none => true)
/-- The last task of a group leaves its core: the staged tiles of its launch go (R150). -/
def Core.dropStaging (k : Core) (launch : Nat) : Core :=
  if ctxIds.any fun x => (k.ctx x).st != .free && (k.ctx x).st != .saved && (k.ctx x).launch == some launch then k
  else { k with staging := k.staging.map fun b => match b with | some t => if t.launch = launch then none else b | none => none }
/-- A core without tasks leaves the order in which cores take their turns (assumption 4). -/
def State.leaveRota (s : State) (c : CoreId) : State :=
  if ctxIds.all fun x => (s.ctx c x).st == .free || (s.ctx c x).st == .saved then { s with rota := s.rota.filter fun k => k != c } else s
/-- A context becomes Free (R17), which triggers its task unless a guard's commit or exact task does (R345), and may end its launch. -/
def State.freeCtx (s : State) (c : CoreId) (x : CtxId) : State :=
  let y := s.ctx c x
  let s := s.mapCore c fun k => (k.mapCtx x fun z => { z with st := .free }).mapCtx x fun z => { z with trigged := true }
  let s := s.mapCore c fun k => { k with inflight := k.inflight.filter fun e => e.ctx != x }
  let s := s.leaveRota c
  match s.launchOf c x with
  | none => s
  | some l =>
    let s := s.mapCore c fun k => k.dropStaging l.id
    let s := s.mapLaunch c.die l.id fun z => if l.isExact y then { z with exactFreed := z.exactFreed + 1 } else { z with freed := z.freed + 1 }
    let s := if l.guard && !l.isExact y then s else s.trigger c.die l.id y.task.toNat
    (s.wakeAll (s.coresOf c.die l.id)).tryRetire c.die l.id
/-- CONTEXT_FREE (R17). -/
def execContextFree (c : CoreId) (x : CtxId) (s : State) : Out := .next (if s.canFree c x then s.freeCtx c x else s)

end Sys2Proof.Machine
end

