-- ==== Sys2Proof/Machine/Launch.lean ====
section
/-!
DEFINITION. Sys2Proof/Machine/Launch.lean: launch records (R334), kernel images and their checks (R58, R336), and the checks made at the first placement
of a launch (R13, R15, R24, R261, R276, R284, R290, R321, R335, R339, R348).
-/
namespace Sys2Proof.Machine

/-! ### Reads of device memory by Patante -/

/-- The PA that fails when `n` bytes of local HBM are read: unassigned, or a poisoned unit (R195, R333, R336). -/
def State.readFault (s : State) (pa n : Nat) : Option Nat :=
  if !s.localHbm pa then some pa
  else if !s.localHbm (pa + n - 1) then some (pa + n - 1)
  else s.poison.find? fun u => overlaps u 8 pa n
/-- The same of a `.data` section, which may lie anywhere that is assigned (R186, R336). -/
def State.dataFault (s : State) (pa n : Nat) : Bool :=
  !s.assigned pa || !s.assigned (pa + n - 1) || s.poison.any fun u => overlaps u 8 (s.localPa pa) n
/-- The bytes of a `.data` section; those of a peer or another package are any value to the model, and the own window is local (R185). -/
def State.dataBytes (s : State) (pa n : Nat) : List Byte :=
  match s.classAt pa with
  | some .peer | some .remote => leBytes n (Config.freeBits (8 * n) s.tick 880000).toNat
  | _ => Memory.bytes s.mem (s.localPa pa) n
/-- A word of memory. -/
def State.word (s : State) (pa : Nat) : Nat := Memory.read s.mem pa 8

/-! ### Launch records (R334) -/

/-- No reserved field of a record is nonzero; bits of cluster values 6 and 7 are (R334). -/
def recordFieldsOk (w : Nat → Nat) : Bool :=
  bits (w 0) 52 12 == 0 && bits (w 1) 48 2 == 0 && bits (w 6) 55 9 == 0 && bits (w 7) 13 48 == 0 && bits (w 10) 52 12 == 0 && w 19 == 0 &&
    ((List.range 6).all fun i => w (26 + i) == 0) &&
    (List.range 256).all fun i => decide (i / 8 % 8 < 6) || !bit (w (2 + i / 64)) (i % 64)

/-- A launch as its record names it (R334); `rot` replaces an argument word for a graph node (R344). -/
def State.readRecord (s : State) (id : Nat) (q : Fin 64) (node : Option (Nat × Nat)) (pa : Nat) (tag : Word) (rot : Option (Nat × Nat)) : Launch :=
  let w (i : Nat) := s.word (pa + 8 * i)
  let args : Vector Word 8 := Vector.ofFn fun i => BitVec.ofNat 64 (match rot with
    | some (k, add) => if k = i.val then w (11 + i.val) + add else w (11 + i.val)
    | none => w (11 + i.val))
  { id := id, queue := q, node := node, recPa := pa, tag := tag, image := bits (w 0) 0 52, exact := bits (w 10) 0 52, asid := BitVec.ofNat 14 (w 1 / 2 ^ 50)
    gx := bits (w 1) 0 16 + 1, gy := bits (w 1) 16 16 + 1, gz := bits (w 1) 32 16 + 1
    cores := BitVec.ofNat 256 (w 2 + w 3 * 2 ^ 64 + w 4 * 2 ^ 128 + w 5 * 2 ^ 192)
    htab := BitVec.ofNat 64 (bits (w 6) 0 55), hcount := bits (w 7) 0 13, coresident := bit (w 7) 63, serial := bit (w 7) 62, irq := bit (w 7) 61
    seed := BitVec.ofNat 64 (w 8), tol := BitVec.ofNat 64 (w 9), args := args, recordOk := recordFieldsOk w, checked := false
    n := 1, accMask := 0, current := 0, whole := false, guard := false, ioff := 0, cbytes := 0, entry := 0, xhead := .replicate 8 0
    boards := [], domains := .replicate 4 0, chans := [], nextGroup := 0, ahead := [], exactTasks := [], started := false, retired := [], freed := 0
    exactFreed := 0, exactSent := 0, killed := 0, trigged := [], commits := 0, gPass := 0, gFail := 0, gOvfl := 0, gFault := 0 }

/-! ### Kernel images (R336) -/

/-- A declaration entry: type, index, body. -/
structure Decl where
  kind : Nat
  index : Nat
  w : Vector Word 4
deriving DecidableEq, Repr
def Decl.word (d : Decl) (i : Nat) : Nat := (d.w.toList.getD i 0).toNat

/-- An image as read: header words, instruction words with their map bits, declarations. -/
structure Image where
  pa : Nat
  head : Vector Word 8
  code : List (Word32 × Bool)
  decls : List Decl
deriving DecidableEq, Repr

def headWord (h : Vector Word 8) (i : Nat) : Nat := (h.toList.getD i 0).toNat
def headCbytes (h : Vector Word 8) : Nat := bits (headWord h 1) 32 32
def headIoff (h : Vector Word 8) : Nat := bits (headWord h 1) 0 18
def headEntry (h : Vector Word 8) : Nat := bits (headWord h 2) 0 18
def headWhole (h : Vector Word 8) : Bool := bit (headWord h 3) 33
def headGuard (h : Vector Word 8) : Bool := bit (headWord h 3) 32
def headCurrent (h : Vector Word 8) : Nat := bits (headWord h 3) 16 16
def headAcc (h : Vector Word 8) : BitVec 8 := BitVec.ofNat 8 (bits (headWord h 3) 8 8)
def headContexts (h : Vector Word 8) : Nat := bits (headWord h 3) 0 2 + 1
def headDcount (h : Vector Word 8) : Nat := bits (headWord h 4) 32 32
def headDoff (h : Vector Word 8) : Nat := bits (headWord h 4) 0 32

/-- The header's own rules (R336). -/
def headOk (h : Vector Word 8) : Bool :=
  let w := headWord h
  w 0 == 0x6D696F31 && bits (w 1) 18 14 == 0 && bits (w 2) 18 46 == 0 && bits (w 3) 34 30 == 0 && bits (w 3) 2 6 == 0 && w 5 == 0 && w 6 == 0 && w 7 == 0 &&
    headCbytes h % 4 == 0 && decide (4 ≤ headCbytes h ∧ headCbytes h ≤ 262144) && headIoff h % 4 == 0 && decide (headIoff h + headCbytes h ≤ 262144) &&
    headEntry h % 4 == 0 && decide (headEntry h < headCbytes h) && decide (headDcount h ≤ 8192) && headDoff h % 16 == 0

/-- Instruction words with their map bits, from the bytes of the words and of the map (R58, R336). -/
def zipMap : List Byte → List Byte → Nat → List (Word32 × Bool)
  | a :: b :: c :: d :: t, m :: ms, i => ((d ++ c ++ b ++ a : BitVec 32), m.getLsbD i) :: (if i = 7 then zipMap t ms 0 else zipMap t (m :: ms) (i + 1))
  | _, _, _ => []

/-- Every marked word is a legal crown whose bundle lies inside the image and holds no other marked word (R58): `skip` words of the bundle before are
still to come, `left` words of the image. -/
def bundlesOk : Nat → Nat → List (Word32 × Bool) → Bool
  | _, _, [] => true
  | skip, left, (w, m) :: t =>
    if m then
      skip == 0 && (match decodeCrown w with
        | .ok c => decide (c.len ≤ left) && bundlesOk (c.len - 1) (left - 1) t
        | .error _ => false)
    else bundlesOk (skip - 1) (left - 1) t

/-- A declaration's own rules (R285, R289, R291, R336); channel indices end at 1,023 (R289). What a type-7 name holds is not looked at, since nothing that Patante
does depends on it, and V of a `.channel` body neither (assumption 82). Assumption 31. -/
def Decl.ok (d : Decl) : Bool :=
  let w := d.word
  match d.kind with
  | 1 => bits (w 0) 35 28 == 0 && bits (w 0) 29 3 == 0 && bits (w 0) 9 7 == 0 && bits (w 1) 55 9 == 0 && w 3 == 0
  | 2 => bits (w 0) 53 2 == 0 && bits (w 1) 16 48 == 0 && w 2 == 0 && w 3 == 0 && decide (d.index < 1024)
  | 3 => decide (d.index ≤ 3) && bit (w 0) 63 && bits (w 0) 60 3 == 0 && bits (w 0) 48 12 == 0 && w 1 == 0 && w 2 == 0 && w 3 == 0
  | 4 => decide (w 0 ≤ 15) && w 1 == 0 && w 2 == 0 && w 3 == 0
  | 5 => w 0 % 16 == 0 && decide (w 0 + 16 ≤ spadSize) && w 1 == 0 && w 2 == 0 && w 3 == 0
  | 6 => decide (w 0 + w 1 ≤ spadSize) && w 3 == 0
  | 7 => d.index == 0
  | _ => false

/-- An entry as it stands in memory; none when its head is not legal. -/
def State.readDecl (s : State) (pa : Nat) : Option Decl :=
  let h := s.word pa
  if bits h 8 24 ≠ 0 ∨ s.word (pa + 8) ≠ 0 then none
  else some ⟨bits h 0 8, bits h 32 32, Vector.ofFn fun i => BitVec.ofNat 64 (s.word (pa + 16 + 8 * i.val))⟩

def readAll {α : Type} : List (Option α) → Option (List α)
  | [] => some []
  | none :: _ => none
  | some x :: t => (readAll t).map (x :: ·)

/-- An image in local HBM that keeps every rule of R58 and R336; none is IMAGE_INVALID. -/
def State.readImage (s : State) (pa : Nat) : Option Image :=
  if pa % 256 ≠ 0 ∨ (s.readFault pa 64).isSome then none
  else
    let h : Vector Word 8 := Vector.ofFn fun i => BitVec.ofNat 64 (s.word (pa + 8 * i.val))
    if !headOk h then none
    else
      let cb := headCbytes h
      let mb := (cb + 31) / 32
      if (s.readFault (pa + 64) (cb + mb)).isSome ∨ (headDcount h ≠ 0 ∧ (s.readFault (pa + headDoff h) (48 * headDcount h)).isSome) then none
      else
        let code := zipMap (Memory.bytes s.mem (pa + 64) cb) (Memory.bytes s.mem (pa + 64 + cb) mb) 0
        match readAll ((List.range (headDcount h)).map fun i => s.readDecl (pa + headDoff h + 48 * i)) with
        | none => none
        | some ds =>
          let keys := ds.map fun d => (d.kind, d.index)
          if ds.all Decl.ok && keys.eraseDups.length == keys.length && (headGuard h == ds.any fun d => d.kind == 7) &&
              (ds.all fun d => d.kind != 6 || d.word 1 == 0 || !s.dataFault (pa + d.word 2) (d.word 1)) &&
              bundlesOk 0 code.length code && (match code[headEntry h / 4]? with | some (_, m) => m | none => false)
          then some ⟨pa, h, code, ds⟩ else none

/-- The declarations of a kind. -/
def Image.of (i : Image) (k : Nat) : List Decl := i.decls.filter fun d => d.kind == k
def Image.dataBytes (i : Image) : Nat := ((i.of 6).map fun d => d.word 1).sum

/-! ### Checks at the first placement (R340) -/

/-- Block extents of a domain entry (R291). -/
def blockOf (w : Nat) : List Nat := [bits w 0 16 + 1, bits w 16 16 + 1, bits w 32 16 + 1]
/-- The number of blocks of an extent list in a grid (R24). -/
def blocksIn (g b : List Nat) : Nat := ((g.zip b).map fun (x, y) => ceilDiv x y).foldl (· * ·) 1
/-- The entry of level 4 + j, or 0. -/
def Image.domain (i : Image) (j : Nat) : Nat := (((i.of 3).find? fun d => d.index == j).map fun d => d.word 0).getD 0
/-- R24: levels declared in ascending order without gaps, each level's extents multiples of those below it, at most 4,096 domains a level. -/
def Image.domainsOk (i : Image) (g : List Nat) : Bool :=
  let n := (i.of 3).length
  (i.of 3).map (·.index) == List.range n && (List.range n).all fun j => bit (i.domain j) 63 && decide (blocksIn g (blockOf (i.domain j)) ≤ 4096) &&
    (j == 0 || ((blockOf (i.domain j)).zip (blockOf (i.domain (j - 1)))).all fun (a, b) => a % b == 0)

/-- Codes that R33 assigns to a format; 0x15 is valid only as an instruction suffix (R34). -/
def formatCode (c : Nat) : Bool := decide (c ≤ 0x16) && c != 0x13 && c != 0x15
/-- R290. -/
def chanDeclOk (d : Decl) (tasks : Nat) : Bool :=
  let w := d.word 0
  decide (1 ≤ bits w 55 7 ∧ bits w 55 7 ≤ 64) && formatCode (bits w 48 5) && decide (bits w 24 24 < tasks) && decide (bits w 0 24 < tasks)
/-- The bytes of a channel's FIFO (R290). -/
def chanBytes (vec : Bool) (depth : Nat) : Nat := depth * (if vec then 256 else 8)

/-- The pages of the tile-handle table: class HBM, homed on the die, mapped (R284). Each entry is looked at, since it may cross pages. -/
def State.tableOk (s : State) (d : DieId) (l : Launch) : Bool :=
  (List.range (4 * l.hcount)).all fun i =>
    let va := (l.htab.toNat + 8 * i) % 2 ^ 64
    match s.walk d l.asid va with
    | .ok k => k.cls == .hbm && s.homeDie (k.paOf va) == d && s.assigned (k.paOf va)
    | .error _ => false

/-- The limit of a field (R325). -/
def Die.limit (d : Die) (f : Fin 4) : Nat := max 0x100 d.fields[f].lim.toNat
/-- The tasks of a group (R14). -/
def Launch.groupSize (l : Launch) (k : Nat) : Nat := min l.n (l.tasks - k * l.n)
/-- Where the groups of a whole launch go (R15). -/
def State.wholeCores (s : State) (d : DieId) (l : Launch) : List (CoreId × Nat) := ((s.namedCores d l.cores).take l.groups).zipIdx
/-- The current a whole launch adds to a field. -/
def State.wholeCurrent (s : State) (d : DieId) (l : Launch) (f : Fin 4) : Nat :=
  (((s.wholeCores d l).filter fun (c, _) => c.field == f).map fun (_, k) => l.groupSize k * l.current).sum
/-- A group fits no field even with nothing else placed (R335, R339 rule 5). -/
def State.currentTooHigh (s : State) (d : DieId) (l : Launch) : Bool :=
  let named := s.namedCores d l.cores
  (if l.whole then (List.finRange 4).any fun f => decide ((s.die d).limit f < s.wholeCurrent d l f)
   else named.all fun c => decide ((s.die d).limit c.field < l.groupSize 0 * l.current)) ||
  (l.guard && named.all fun c => decide ((s.die d).limit c.field < headCurrent l.xhead))
/-- Channel storage that a launch needs on a core (R261). -/
def State.chanNeed (s : State) (d : DieId) (l : Launch) (c : CoreId) : Nat :=
  ((l.chans.filter fun h => s.taskCore d l h.cons == some c).map fun h => chanBytes h.vec h.depth).sum
/-- The clusters that a whole launch occupies (R321). -/
def State.clustersOf (s : State) (d : DieId) (l : Launch) : List Nat := ((s.wholeCores d l).map fun (c, _) => c.val / 8 % 32).eraseDups
/-- The die's counters that a launch takes: a cluster, a launch and a declared domain each have one (R321). -/
def State.counterNeed (s : State) (d : DieId) (l : Launch) : Nat :=
  if l.whole then (s.clustersOf d l).length + 1 + ((l.domains.toList.filter fun w => w.getLsbD 63).map fun w => blocksIn [l.gx, l.gy, l.gz] (blockOf w.toNat)).sum else 0

/-- The launch with what its image declares; a launch with channels or domains is placed whole (R15). Every `.channel` declaration declares a channel, whatever
V its body holds: assumption 82. -/
def Launch.withImage (l : Launch) (i : Image) (x : Option Image) : Launch :=
  let chans := (i.of 2).map fun d =>
    let w := d.word 0
    (⟨d.index, bit w 62, bits w 55 7, BitVec.ofNat 5 (bits w 48 5), bits w 24 24, bits w 0 24, 0, 0, 0, 0, [], []⟩ : Chan)
  { l with checked := true, n := headContexts i.head, accMask := headAcc i.head, current := headCurrent i.head
           whole := headWhole i.head || !(i.of 2).isEmpty || !(i.of 3).isEmpty, guard := headGuard i.head, ioff := headIoff i.head
           cbytes := headCbytes i.head, entry := headEntry i.head, xhead := (x.map (·.head)).getD (.replicate 8 0)
           boards := (i.of 4).map fun d => d.word 0
           domains := Vector.ofFn fun j => BitVec.ofNat 64 (if bit (i.domain j.val) 63 then
             i.domain j.val + (blocksIn [l.gx, l.gy, l.gz] (blockOf (i.domain j.val)) - 1) * 2 ^ 48 else 0)
           chans := chans }
/-- Launches of a die that have been placed at least in part. -/
def Die.placed (d : Die) : List Launch := d.launches.filter fun l => decide (0 < l.nextGroup) || !l.ahead.isEmpty
/-- The ranges of a launch's FIFOs in the channel storage of a core: offset and length (R289). -/
def State.chanRanges (s : State) (d : DieId) (l : Launch) (c : CoreId) : List (Nat × Nat) :=
  (l.chans.filter fun h => s.taskCore d l h.cons == some c).map fun h => (h.off, chanBytes h.vec h.depth)
/-- The lowest offset of `n` free bytes beside the ranges in use; past the storage where there is none. -/
def firstFit (used : List (Nat × Nat)) (n : Nat) : Nat :=
  (((0 :: used.map fun r => r.1 + r.2).filter fun a => used.all fun r => !overlaps a n r.1 r.2).filter fun a => decide (a + n ≤ 65536)).foldl min 65536
/-- FIFO offsets in the channel storage of each consumer's core, beside the channels of the launches already placed there (R261, R289). -/
def State.placeChans (s : State) (d : DieId) (l : Launch) : Launch :=
  { l with chans := (l.chans.foldl (fun (acc : List Chan × List (CoreId × Nat × Nat)) h =>
      match s.taskCore d l h.cons with
      | none => (acc.1 ++ [h], acc.2)
      | some c =>
        let used := ((s.die d).placed.filter fun m => m.id != l.id).flatMap (fun m => s.chanRanges d m c) ++ (acc.2.filter fun r => r.1 == c).map (·.2)
        let at_ := firstFit used (chanBytes h.vec h.depth)
        (acc.1 ++ [{ h with off := at_ }], (c, at_, chanBytes h.vec h.depth) :: acc.2)) ([], [])).1 }
/-- The storage that a launch needs beside the launches already placed: a channel that does not fit its consumer's core, or counters past the die's store
(R261, R321, R339 rule 6). Assumption 65. -/
def State.spaceCodes (s : State) (d : DieId) (l : Launch) : List Nat :=
  (if l.chans.any fun h => (s.taskCore d l h.cons).isSome && decide (65536 < h.off + chanBytes h.vec h.depth) then [0x15] else []) ++
    (if 32768 < s.counterNeed d l + (s.die d).counters.countP (fun k => decide (2 ≤ k.level)) then [0x17] else [])

/-- A failing check's status. -/
def failIf (b : Bool) (code : Nat) : List Nat := if b then [code] else []

/-- The codes that apply when the launch is placed: an address space that is not live, and handle tables of a live one (R276, R290, R340). -/
def State.lateCodes (s : State) (d : DieId) (l : Launch) : List Nat :=
  let at_ := bits (s.die d).asbase.toNat 16 36 * 2 ^ 16 + 16 * l.asid.toNat
  let live := s.localHbm at_ && bit (s.word at_) 63
  failIf (!live) 0x14 ++ failIf (live && decide (l.hcount ≤ 4096) && !s.tableOk d l) 0x16
/-- The status codes that apply to a launch whatever is placed (R335), and the launch as checked. -/
def State.launchChecks (s : State) (d : DieId) (l : Launch) : List Nat × Launch :=
  let img := s.readImage l.image
  let ex := if l.exact = 0 then none else s.readImage l.exact
  match img with
  | none => (failIf (!l.recordOk) 0x1C ++ [0x13], l)
  | some i =>
    let m := s.placeChans d (l.withImage i ex)
    let named := s.namedCores d l.cores
    let grid := decide (2 ^ 24 < m.tasks)
    let wide := m.whole && decide (named.length < m.groups)
    let first := failIf (!l.recordOk) 0x1C ++ failIf (l.exact ≠ 0 && ex.isNone) 0x13 ++ failIf grid 0x10 ++
      failIf (!grid && !i.domainsOk [m.gx, m.gy, m.gz]) 0x12 ++
      failIf (decide (4096 < l.hcount) || (i.of 1 ++ ((ex.map fun x => x.of 1).getD [])).any fun e => decide (l.hcount ≤ e.index)) 0x16 ++
      failIf ((i.of 2).any fun e => !chanDeclOk e m.tasks) 0x16 ++
      failIf ((headGuard i.head != (l.exact != 0)) || (match ex with
        | some x => headGuard x.head || headContexts x.head != 1 || headWhole x.head || x.decls.any fun e => e.kind == 2 || e.kind == 3 || e.kind == 4
        | none => false)) 0x1B ++
      failIf named.isEmpty 0x1A ++ failIf (!named.isEmpty && wide) 0x11
    if !first.isEmpty then (first ++ s.lateCodes d l, m)
    else if s.currentTooHigh d m then (0x19 :: s.lateCodes d l, m)
    else
      let space := failIf (m.chans.any fun h => match s.taskCore d m h.cons with | some c => decide (65536 < s.chanNeed d m c) | none => false) 0x15 ++
        failIf (decide (32768 < s.counterNeed d m)) 0x17
      (if space.isEmpty then [] else space ++ s.lateCodes d l, m)

end Sys2Proof.Machine
end

