-- ==== Sys2Proof/Machine/Images.lean ====
section
/-!
DEFINITION. Sys2Proof/Machine/Images.lean: context images and group images (R370, R371), saving a core group (R369) and putting it back (R373).
-/
namespace Sys2Proof.Machine

/-! ### Writing and reading whole ranges -/

/-- A range without its listed bytes. -/
def Memory.clear (m : List Host.Cell) (a n : Nat) : List Host.Cell := m.filter fun c => decide (c.1 < a) || decide (a + n ≤ c.1)
/-- The lines of a range stamped as by stores of a writer with no clock of its own (R216). -/
def Die.stampRange (d : Die) (first count : Nat) : Die :=
  let isIn (t : LineTag) : Bool := decide (first ≤ t.line) && decide (t.line < first + count)
  let old := d.lines.filter isIn
  let new := (List.range count).map fun i =>
    let t := (old.find? fun t => t.line == first + i).getD (let f := d.floorOf (first + i); ⟨first + i, f, f, false, false⟩)
    ({ t with wts := t.rts + 1, rts := t.rts + 1, dirty := true, held := true } : LineTag)
  { d with lines := new ++ d.lines.filter fun t => !isIn t }
/-- `n` bytes of local HBM become the given pieces, every other byte of them zero. -/
def State.bulkPut (s : State) (pa n : Nat) (ps : List (Nat × List Byte)) : State :=
  let s := s.mapDie (s.homeDie pa) fun d => d.stampRange (lineOf pa) ((n + 127) / 128)
  { s with
    mem := ps.foldl (fun m (p : Nat × List Byte) => Memory.setBytes m (pa + p.1) p.2) (Memory.clear s.mem pa n)
    poison := unpoison s.poison pa n }
/-- The listed bytes of a range, one piece each, by offset. -/
def Memory.pieces (m : List Host.Cell) (a n : Nat) : List (Nat × List Byte) :=
  (m.filter fun c => decide (a ≤ c.1) && decide (c.1 < a + n)).map fun c => (c.1 - a, [c.2])

/-! ### Context images (R371) -/

def LoopState.word (l : LoopState) : Word := l.endw ++ l.startw ++ l.count
def LoopState.ofWord (w : Word) : LoopState := ⟨w.extractLsb' 48 16, w.extractLsb' 32 16, w.extractLsb' 0 32⟩
/-- The pending `dbar` record in its 16 bytes: bit 63 present, bits 18:16 level, bits 15:0 gen (R371 leaves the layout open; assumption 26). -/
def dbarWord (p : Option DbarPend) : Nat := match p with | some p => 2 ^ 63 + p.level.val * 2 ^ 16 + p.gen.toNat | none => 0
def dbarOf (w : Nat) : Option DbarPend := if bit w 63 then some ⟨⟨bits w 16 3, Nat.mod_lt _ (by decide)⟩, BitVec.ofNat 16 w⟩ else none
/-- `%fmtn` as saved: the newest value, and how many committed bundles still come before it governs (R43, R371). -/
def Ctx.savedFmtn (y : Ctx) : BitVec 5 × Nat := match y.fmtPend.getLast? with | some p => (p.val, p.left) | none => (y.fmtn, 0)
/-- The special registers in index order; the `%core` slot holds 0 (R371). -/
def Ctx.specials (y : Ctx) (x : CtxId) : List Word :=
  [ctxWord y x, 0, y.task.setWidth 64, y.dmem, y.savedFmtn.1.setWidth 64, y.tol, y.rseed, y.rpos, y.pts, y.lease.setWidth 64]
def wordBytes (ws : List Word) : List Byte := ws.flatMap fun (w : Word) => leBytes 8 w.toNat
/-- The PC as an image holds it: the whole target of a transfer that has not been fetched yet (R107). -/
def Ctx.pcWord (y : Ctx) : Word := match y.via with | some v => v.target | none => y.pc.setWidth 64
/-- The pieces of a context image, by offset (R371). -/
def ctxPieces (k : Core) (x : CtxId) (arms : List Arm) : List (Nat × List Byte) :=
  let y := k.ctx x
  let mine (e : Eng) : Bool := (k.eng e).claim == some x
  let shadow (e : Eng) : List Byte := if mine e then wordBytes (k.eng e).shadow.toList else []
  let flags := (if y.st = .blocked then 1 else if y.st = .retired then 2 else 0) + (mine .copy).toNat * 16 + (mine .xft).toNat * 32 + (mine .xpose).toNat * 64 + y.savedFmtn.2 % 8 * 256
  [(0x0000, wordBytes y.s.toList), (0x0200, wordBytes y.p.toList), (0x02C0, wordBytes (y.specials x)), (0x0310, leBytes 8 y.pcWord.toNat),
    (0x0318, leBytes 8 y.loop.word.toNat), (0x0320, leBytes 16 (dbarWord y.dbarPend)), (0x0330, leBytes 8 y.runCount), (0x0338, leBytes 8 flags),
    (0x0380, shadow .copy), (0x0400, y.sc.toList.flatMap fun v => leBytes 64 v.toNat),
    (0x0600, arms.flatMap fun a => leBytes 8 a.addr ++ leBytes 8 (a.consume.toNat * 2 ^ 40 + a.board * 2 ^ 32 + (a.count - 1) * 2 ^ 16 + a.first)),
    (0x0A00, match y.replay with
      | some r => ((r.words.flatMap fun (w : Word32) => leBytes 4 w.toNat) ++ List.replicate 64 0).take 64 ++ leBytes 8 (r.smask.toNat + r.code.toNat * 256)
      | none => []),
    (0x0B00, shadow .xft), (0x0B80, shadow .xpose), (0x1000, y.v.toList.flatMap fun v => leBytes 256 v.toNat)]

/-- A `%fmtn` slot at restore: its reserved bits go, and an invalid value becomes 0x05 (R41, R373). -/
def fmtnSlot (w : Nat) : BitVec 5 := let v := BitVec.ofNat 5 w; if fmtnValid v then v else 0x05
/-- The context that an image at `a` restores (R371, R373). `y` gives what the image does not hold; `clock` is the die's release clock; `replay` tells a
replay record; `gov` is the governing `%fmtn` and the earlier pending values, `via` how the PC was reached; a PC reached in sequence counts as reached by the restore (R59):
assumption 38. -/
def State.imageCtx (s : State) (a : Nat) (y : Ctx) (clock : Nat) (replay : Bool) (gov : BitVec 5 × List FmtPend) (via : Option Via) : Ctx :=
  let w (o : Nat) : Word := BitVec.ofNat 64 (s.word (a + o))
  let left := bits (w 0x338).toNat 8 3
  let pc : BitVec 18 := (w 0x310).setWidth 18
  { y with
    st := if bits (w 0x338).toNat 0 2 = 2 then .retired else .placed
    on_ := none
    held := false
    pc := pc
    via := some { via.getD ⟨pc, 0, true⟩ with target := w 0x310 }
    s := Vector.ofFn fun i => if i.val = 0 then 0 else w (8 * i.val)
    p := Vector.ofFn fun i => w (0x200 + 8 * i.val)
    v := Vector.ofFn fun i => BitVec.ofNat 2048 (Memory.read s.mem (a + 0x1000 + 256 * i.val) 256)
    sc := Vector.ofFn fun i => BitVec.ofNat 512 (Memory.read s.mem (a + 0x400 + 64 * i.val) 64)
    loop := .ofWord (w 0x318)
    grd := (w 0x2C0).getLsbD 4
    nm1 := (w 0x2C0).extractLsb' 2 2
    task := (w 0x2D0).setWidth 24
    dmem := w 0x2D8
    fmtn := if left = 0 then fmtnSlot (w 0x2E0).toNat else gov.1
    fmtPend := if left = 0 then [] else gov.2 ++ [⟨fmtnSlot (w 0x2E0).toNat, left⟩]
    tol := w 0x2E8
    rseed := w 0x2F0
    rpos := w 0x2F8
    pts := BitVec.ofNat 64 (max (w 0x300).toNat clock)
    lease := (w 0x308).setWidth 16
    runCount := (w 0x330).toNat
    dbarPend := dbarOf (w 0x320).toNat
    replay := if replay then
      some ⟨(List.range 16).map fun i => BitVec.ofNat 32 (Memory.read s.mem (a + 0xA00 + 4 * i) 4), (w 0xA40).setWidth 8, BitVec.ofNat 8 ((w 0xA40).toNat / 256)⟩
      else none }

/-! ### Group images (R370) -/

/-- A domain barrier counter as the management window and the image show it (R321). -/
def DCounter.toNat (k : DCounter) : Nat :=
  k.members % 2 ^ 24 * 2 ^ 80 + k.live % 2 ^ 24 * 2 ^ 56 + k.arrived % 2 ^ 24 * 2 ^ 32 + k.gen.toNat * 2 ^ 16 + k.drain.toNat * 2 + k.phase.toNat
def DCounter.put (k : DCounter) (v : Nat) : DCounter :=
  { k with members := bits v 80 24, live := bits v 56 24, arrived := bits v 32 24, gen := BitVec.ofNat 16 (bits v 16 16), drain := bit v 1, phase := bit v 0 }

/-- The sectors of a row of a command. -/
def Command.perRow (q : Command) : Nat := if q.eng = .xpose then 1 else max 1 ((templateOf q.set).rowSectors q.help q.n)
/-- An engine record (R370). -/
def enginePiece (q : Command) : List Byte :=
  wordBytes q.set.toList ++
    leBytes 8 (q.tag.toNat * 2 ^ 32 + q.ctx.val * 16 + q.help.toNat * 4 + (if q.eng = .xpose then 2 else 0)) ++
    leBytes 8 q.dst.toNat ++ leBytes 8 q.src.toNat ++ leBytes 8 q.n ++ leBytes 8 (q.sectors / q.perRow) ++ leBytes 8 (q.sectors % q.perRow) ++
    leBytes 8 q.decs ++ List.replicate 72 0 ++ leBytes 512 ((q.served.eraseDups.map fun r => 2 ^ r).sum)
/-- The command that an engine record at `a` restores: a helper's next row runs whole again, without decrementing twice (R370). Assumption 48. -/
def State.readEngine (s : State) (a err : Nat) : Command :=
  let w (i : Nat) := s.word (a + i)
  let xp := bits (w 0x80) 0 2 == 2
  let q : Command :=
    { tag := BitVec.ofNat 32 (w 0x80 / 2 ^ 32), eng := if xp then .xpose else .copy, help := bit (w 0x80) 2, ctx := ⟨bits (w 0x80) 4 2, Nat.mod_lt _ (by decide)⟩
      set := Vector.ofFn fun i => BitVec.ofNat 64 (w (8 * i.val)), dst := BitVec.ofNat 64 (w 0x88), src := BitVec.ofNat 64 (w 0x90), n := bits (w 0x98) 0 32
      sectors := 0, decs := w 0xB0, row := w 0xA0, rowOut := [], served := [], stopped := false, waiting := none, err := err, dirty := [], behind := [] }
  { q with
    sectors := w 0xA0 * q.perRow + (if q.help then 0 else w 0xA8)
    served := if xp then (List.range 4096).filter fun r => bit (Memory.read s.mem (a + 0x100 + r / 8) 1) (r % 8) else [] }

/-- The bytes of a channel in the channel storage: its elements, then the number of its free places, which are its credits, in the first of them (R265, R289,
R370). No rule gives the credits a form: assumption 26. -/
def chanPiece (h : Chan) : Nat × List Byte :=
  (0x40000 + h.off, (h.fifo.flatMap fun v => leBytes (if h.vec then 256 else 8) v.toNat) ++ if h.fifo.length < h.depth then leBytes 8 (h.depth - h.fifo.length) else [])
def atOffset (o : Nat) (ps : List (Nat × List Byte)) : List (Nat × List Byte) := ps.map fun p => (o + p.1, p.2)
/-- The contexts of a core that a save writes: those neither Free nor Saved; a Retired one is among them while a command of its own is stopped (R371). -/
def Core.liveCtxs (k : Core) : List CtxId := ctxIds.filter fun x => (k.ctx x).st != .free && (k.ctx x).st != .saved
/-- Every pattern that a committed `bnload` has still to replace, replaced (R300, R369). -/
def Core.allPatterns (k : Core) : Vector (BitVec 512) 8 :=
  k.patPend.foldl (fun v (p : Nat × Fin 8 × BitVec 512) => v.set p.2.1.val p.2.2 p.2.1.isLt) k.patterns
/-- The pieces of the image of what a core holds (R370). -/
def State.groupPieces (s : State) (c : CoreId) : List (Nat × List Byte) :=
  let k := s.core c
  let xs := k.liveCtxs
  let x0 := xs.headD 0
  let l := s.launchOf c x0
  let stopped := k.copyq.filter (·.stopped)
  let mask (f : CtxId → Bool) : Nat := ((xs.filter f).map fun x => 2 ^ x.val).sum
  [(0, leBytes 8 ((l.map (·.recPa)).getD 0)), (8, leBytes 8 (k.ctx x0).group),
    (16, leBytes 8 (mask (fun _ => true) + mask (fun x => (k.ctx x).replay.isSome) * 16 + stopped.length * 2 ^ 32)),
    (0x100, k.allPatterns.toList.flatMap fun p => leBytes 64 p.toNat), (0x300, leBytes 16 (s.counterOf c x0 1).toNat), (0x310, leBytes 8 k.mitten.length),
    (0x20000, k.acc.toList.flatMap fun a => a.toList.flatMap fun r => leBytes 256 r.toNat)] ++
    (xs.flatMap fun x => atOffset (0x10000 + 0x4000 * x.val) (ctxPieces k x ((s.die c.die).arms.filter fun a => a.core == c && a.ctx == x && a.saved.isNone))) ++
    (((xs.filterMap fun x => (k.ctx x).launch).eraseDups.filterMap fun i => (s.die c.die).launches.find? fun m => m.id == i).flatMap fun m =>
      (m.chans.filter fun h => s.taskCore c.die m h.cons == some c).map chanPiece) ++
    (stopped.zipIdx.map fun (q, i) => (0x80000 + 0x400 * i, enginePiece q)) ++
    (k.mitten.zipIdx.map fun (m, i) => (0x100000 + 8 * i, leBytes 8 (m.mask.toNat * 2 ^ 56 + m.pa / 8 * 8 % 2 ^ 52))) ++
    (k.mitten.zipIdx.map fun (m, i) => (0x140000 + 8 * i, leBytes 8 m.data.toNat)) ++
    atOffset 0x200000 (Memory.pieces s.mem (spadBase c) spadSize)

/-! ### Saving (R369) -/

/-- The saved groups of a core: one for each launch present, all in one image (assumption 27). -/
def State.savedGroups (s : State) (c : CoreId) (area : Nat) : List SavedGroup :=
  let k := s.core c
  let ls := (k.liveCtxs.filterMap fun x => (k.ctx x).launch).eraseDups
  ls.map fun l =>
    let xs := k.liveCtxs.filter fun x => (k.ctx x).launch == some l
    { core := c, launch := l, group := (k.ctx (xs.headD 0)).group, area := area, ctxs := xs
      fmtn := xs.map fun x => (x, (k.ctx x).fmtn, (k.ctx x).fmtPend.dropLast)
      vias := xs.map fun x => (x, (k.ctx x).via)
      owners := k.mitten.map fun m => (m.ctx, m.policy, m.bad)
      errs := (k.copyq.filter fun q => q.stopped && xs.contains q.ctx).map fun q => (q.ctx, q.tag, q.err), clocks := []
      cmds := (k.copyq.filter fun q => q.stopped && xs.contains q.ctx).map fun q => ⟨q.tag, q.eng, q.dirty, q.behind⟩
      syncs := xs.map fun x => (x, (k.ctx x).sync) }
/-- What the core waits for before its group can be written: results, the units, commands, accesses, collectives, and a record (R369); a Placed
context is released first, since it leaves to Ready or Retired alone (R17; assumption 81). -/
def State.drained (s : State) (c : CoreId) : Bool :=
  let k := s.core c
  k.inflight.all (fun e => e.landed || e.dead) && k.mtx.isNone && k.xft.isNone && k.eng1.swap.isNone && k.copyq.all (·.stopped) && k.accesses.isEmpty &&
    k.sent.isEmpty && k.record.isNone && k.mittenDrain.isEmpty && (s.pkg.colls.all fun o => o.core != c) && ctxIds.all fun x => (k.ctx x).st != .placed && ((k.ctx x).st != .retired || k.copyq.any fun q => q.ctx == x)
/-- The image is written, and the core becomes free (R369); the windows of its stopped commands stay open (R251). -/
def State.writeGroup (s : State) (c : CoreId) : State :=
  let k := s.core c
  let area := k.pctlImg.toNat
  let xs := k.liveCtxs
  let gs := s.savedGroups c area
  let decl := (xs.map fun x => match s.launchOf c x with | some l => if (k.ctx x).st = .retired then 0 else l.currentOf (k.ctx x) | none => 0).sum
  let s := ((s.bulkPut area 0x400000 (s.groupPieces c)).endFreeze c).undeclare c decl
  let s := s.mapCore c fun k =>
    let k := xs.foldl (fun k x => (k.endClaims x false).mapCtx x fun y => { y with st := .saved, on_ := none, held := false, replay := none }) k
    { k with running := none, inflight := [], copyq := [], mitten := [], patterns := k.allPatterns, patPend := [], pctlState := 3 }
  (s.mapDie c.die fun d => { d with
    saved := d.saved ++ gs
    arms := d.arms.map fun a => if a.core = c ∧ xs.contains a.ctx then { a with saved := if a.saved.isSome then a.saved else some area } else a }).leaveRota c

/-! ### Restoring (R373) -/

/-- Instruction words and map bits of a loaded image replace those of its range (R337). -/
def Core.loadImage (k : Core) (i : Image) : Core :=
  let lo := headIoff i.head / 4
  let n := i.code.length
  let out (w : Nat) : Bool := decide (w < lo) || decide (lo + n ≤ w)
  { k with
    imem := (i.code.zipIdx.map fun (x, j) => (lo + j, x.1)) ++ k.imem.filter fun e => out e.1
    imap := (i.code.zipIdx.filterMap fun (x, j) => if x.2 then some (lo + j) else none) ++ k.imap.filter out
    imemBad := k.imemBad.filter out
    resident := ⟨i.pa, headIoff i.head, headCbytes i.head, i.dataBytes⟩ ::
      k.resident.filter fun r => decide (r.ioff + r.cbytes ≤ headIoff i.head) || decide (headIoff i.head + headCbytes i.head ≤ r.ioff) }
/-- The image is resident (R337). -/
def Core.isResident (k : Core) (pa ioff cbytes : Nat) : Bool :=
  k.resident.any fun r => r.image == pa && r.ioff == ioff && r.cbytes == cbytes && decide (r.dataBytes ≤ 4096)
/-- A core gets an image that it does not hold (R337). -/
def State.ensureImage (s : State) (c : CoreId) (i : Image) : State :=
  if (s.core c).isResident i.pa (headIoff i.head) (headCbytes i.head) then s else s.mapCore c fun k => k.loadImage i

/-- A context of a saved group as its image holds it (R371), with the `%pts` that R229 has raised it to meanwhile. -/
def State.savedCtx (s : State) (g : SavedGroup) (l : Launch) (x : CtxId) : Ctx :=
  let a := g.ctxBase x
  let base : Ctx := { Ctx.reset with
    launch := some l.id
    group := g.group
    accMask := if l.groups ≤ g.group then headAcc l.xhead else l.accMask
    trigged := l.trigged.contains (bits (s.word (a + 0x2D0)) 0 24)
    sync := (g.syncs.lookup x).getD ⟨[], [], []⟩ }
  s.imageCtx a base (max (s.die g.core.die).clock (g.clockOf x)) (bit (s.word (g.area + 16)) (4 + x.val)) ((g.fmtn.lookup x).getD (0x05, []))
    ((g.vias.lookup x).getD none)
/-- The contexts of one saved group are put back from its image (R371, R373). -/
def State.restoreCtxs (s : State) (g : SavedGroup) (l : Launch) : State :=
  g.ctxs.foldl (fun t x =>
    let a := g.ctxBase x
    let y := s.savedCtx g l x
    let flags := s.word (a + 0x338)
    t.mapCore g.core fun k =>
      ([(Eng.copy, 4, 0x380), (Eng.xft, 5, 0xB00), (Eng.xpose, 6, 0xB80)].foldl (fun k (e, b, o) =>
        if bit flags b then k.setEng e { k.eng e with shadow := Vector.ofFn fun i => BitVec.ofNat 64 (s.word (a + o + 8 * i.val)), claim := some x } else k) k).setCtx x y) s
/-- No context on the core has claimed a shadow set that a saved context of the group claims (R91): the restore waits until then. Assumption 66. -/
def State.claimsFree (s : State) (g : SavedGroup) : Bool :=
  g.ctxs.all fun x => [(Eng.copy, 4), (Eng.xft, 5), (Eng.xpose, 6)].all fun (e, b) =>
    !bit (s.word (g.ctxBase x + 0x338)) b || (((s.core g.core).eng e).claim.isNone && ((s.core g.core).eng e).swap.isNone)
/-- Accumulators of a mask, from the image (R370). -/
def State.restoreAcc (s : State) (c : CoreId) (area : Nat) (mask : BitVec 8) : State :=
  (List.finRange 8).foldl (fun t a =>
    if mask.getLsbD a.val then t.mapCore c fun k => { k with
      acc := k.acc.set a.val (Vector.ofFn fun r => BitVec.ofNat 2048 (Memory.read s.mem (area + 0x20000 + 0x4000 * a.val + 256 * r.val) 256)) a.isLt }
    else t) s
/-- A command reads its source through virtual addresses (R240, R255). -/
def Command.virtualSource (q : Command) : Bool := match q.eng with | .xpose => (xparam q.set).isp | _ => (templateOf q.set).ssp
/-- What the core holds once for all its contexts is put back: scratchpad, patterns, the level-1 counter of the group that the header names, commands, the
mitten buffer (R370, R373). The scratchpad reads as it was saved on every path (R373), the windows of the commands are still open (R251), and the core is
frozen until the release of the group (R354). -/
def State.restoreCore (s : State) (g : SavedGroup) : State :=
  let c := g.core
  let s := { s.mapCore c fun k => (k.noteWrite 0 spadSize).settleRange (spadBase c) spadSize with
    mem := (Memory.pieces s.mem (g.area + 0x200000) spadSize).foldl (fun m (p : Nat × List Byte) => Memory.setBytes m (spadBase c + p.1) p.2)
      (Memory.clear s.mem (spadBase c) spadSize)
    poison := unpoison s.poison (spadBase c) spadSize }
  let s := s.mapDie c.die fun d =>
    match d.launches.find? fun l => l.recPa == s.word g.area && d.saved.any fun h => h.core == c && h.area == g.area && h.launch == l.id with
    | some l => d.putCounter ((d.counter l.id 1 (s.word (g.area + 8))).put (Memory.read s.mem (g.area + 0x300) 16))
    | none => d
  let mine : List SavedGroup := (s.die c.die).saved.filter fun h => h.core == c && h.area == g.area
  let errs : List (CtxId × Word32 × Nat) := mine.flatMap (·.errs)
  let windows : List SavedCmd := mine.flatMap (·.cmds)
  let commands : List Command := (List.range (bits (s.word (g.area + 16)) 32 16)).map fun i =>
    let q := s.readEngine (g.area + 0x80000 + 0x400 * i) 0
    let w : SavedCmd := (windows.find? fun y => y.tag == q.tag).getD ⟨q.tag, q.eng, [], []⟩
    { q with err := ((errs.find? fun (e : CtxId × Word32 × Nat) => e.2.1 == q.tag).map fun e => e.2.2).getD 0, dirty := w.dirty, behind := w.behind }
  let isNew (q : Command) : Bool := q.virtualSource && !(s.watch.any fun w => w.core == c && w.tag == q.tag)
  let s := { s with watch := (commands.filter isNew).map (fun (q : Command) => (⟨c, q.tag, []⟩ : Watch)) ++ s.watch }
  s.mapCore c fun k => { k with
    patPend := []
    patterns := Vector.ofFn fun i => BitVec.ofNat 512 (Memory.read s.mem (g.area + 0x100 + 64 * i.val) 64)
    copyq := k.copyq ++ commands
    mitten := k.mitten ++ (List.range (min 32768 (s.word (g.area + 0x310)))).map fun i =>
      let t := s.word (g.area + 0x100000 + 8 * i)
      let o := g.owners.getD i (0, 0, false)
      (⟨o.1, bits t 3 49 * 8, o.2.1, BitVec.ofNat 8 (t / 2 ^ 56), BitVec.ofNat 64 (s.word (g.area + 0x140000 + 8 * i)), o.2.2⟩ : MittenEntry)
    restoring := true }
/-- An arm as entry `i` of a context image holds it (R319, R371). -/
def State.imageArm (s : State) (base i : Nat) (a : Arm) : Arm :=
  let w := s.word (base + 0x608 + 16 * i)
  { a with addr := s.word (base + 0x600 + 16 * i), board := bits w 32 4, first := bits w 0 12, count := bits w 16 12 + 1, consume := bit w 40, saved := none, seen := false }
/-- The arms of a restored context are reinstalled from its image, in their order, and tested at once; one whose bits were set meanwhile fires (R320, R373).
Each keeps the age that it had before the save: assumption 96. -/
def State.restoreArms (s : State) (g : SavedGroup) (x : CtxId) : State :=
  let d := g.core.die
  ((s.die d).arms.filter fun a => a.core == g.core && a.ctx == x && a.saved == some g.area).zipIdx.foldl (fun t (a, i) =>
    let b := s.imageArm (g.ctxBase x) i a
    let t := t.mapDie d fun y => { y with arms := y.arms.map fun z => if z = a then b else z }
    if a.seen then t.fireArm d b else t.testArm d b) s

end Sys2Proof.Machine
end

