-- ==== Sys2Proof/Machine/Placement.lean ====
section
/-!
DEFINITION. Sys2Proof/Machine/Placement.lean: Patante's work: placement decisions and batches (R337 to R340), releases (R32), fetches from the launch queues
(R332, R333), and the graph sequencer (R302, R342 to R345).
-/
namespace Sys2Proof.Machine

/-! ### Where a group fits (R339) -/

/-- A context that Patante may give a task: Free, or Saved with its state in an image (R17, R369). Assumption 36. -/
def Core.isVacant (k : Core) (x : CtxId) : Bool := (k.ctx x).st == .free || (k.ctx x).st == .saved
def Core.vacant (k : Core) : List CtxId := ctxIds.filter k.isVacant
def Core.present (k : Core) : List CtxId := ctxIds.filter fun x => !k.isVacant x
/-- The instruction-memory range of a task's image: offset and length (R339 rule 4). -/
def Launch.rangeOf (l : Launch) (y : Ctx) : Nat × Nat := if l.isExact y then (headIoff l.xhead, headCbytes l.xhead) else (l.ioff, l.cbytes)
/-- What a group asks of a core: its launch, the accumulators, the image range, and its current. -/
structure Need where
  launch : Nat
  coresident : Bool
  n : Nat
  acc : BitVec 8
  range : Nat × Nat
  current : Nat
deriving DecidableEq, Repr
/-- Rules 1 to 5 of R339 on a named, enabled core; `extra` is what the same batch adds to the field. The sum of R16 is taken over the contexts in use, so a
partial group, or one that has retired in part, leaves room: assumption 67. -/
def State.fits (s : State) (c : CoreId) (w : Need) (extra : Nat) : Bool :=
  let k := s.core c
  let d := s.die c.die
  k.pctlState != 2 &&
    (if w.coresident then k.present.all (fun x => match s.launchOf c x with | some l => l.coresident && l.id != w.launch | none => false) && decide (w.n ≤ k.vacant.length)
     else k.present.isEmpty) &&
    (k.present.all fun x => (k.ctx x).accMask &&& w.acc == 0) &&
    (k.present.all fun x => match s.launchOf c x with
      | some l => !overlaps w.range.1 w.range.2 (l.rangeOf (k.ctx x)).1 (l.rangeOf (k.ctx x)).2
      | none => true) &&
    decide (d.fields[c.field].decl.toNat + extra + w.current ≤ d.limit c.field)

/-- The scoreboards of R339 rule 6 at a launch's first placement (R316). -/
def State.boardsFree (s : State) (d : DieId) (l : Launch) : Bool :=
  l.boards.all fun j => (s.die d).placed.all fun m => !m.boards.contains j || (m.coresident && l.coresident)

/-! ### Setting up a launch and its groups (R340) -/

/-- The domain index of a task at a declared level (R24). -/
def Launch.blockIndex (l : Launch) (task w : Nat) : Nat :=
  let b := blockOf w
  let x := task % l.gx
  let y := task / l.gx % l.gy
  let z := task / l.gx / l.gy
  x / b.getD 0 1 + ceilDiv l.gx (b.getD 0 1) * (y / b.getD 1 1 + ceilDiv l.gy (b.getD 1 1) * (z / b.getD 2 1))
/-- `%dmem` of a task at placement (R25). -/
def Launch.dmemOf (l : Launch) (task : Nat) : Word :=
  BitVec.ofNat 64 ((l.domains.toList.zipIdx.map fun (w, j) => if w.getLsbD 63 then 2 ^ (52 + j) + l.blockIndex task w.toNat % 4096 * 2 ^ (12 * j) else 0).sum)

/-- The counters of levels 2 to 7 of a launch placed whole (R321). -/
def State.wholeCounters (s : State) (d : DieId) (l : Launch) : List DCounter :=
  let fresh (level idx n : Nat) : DCounter := ⟨l.id, level, idx, n, n, 0, 0, false, false, []⟩
  let cs := s.wholeCores d l
  ((s.clustersOf d l).map fun i => fresh 2 i ((cs.filter fun (c, _) => c.val / 8 % 32 == i).map fun (_, k) => l.groupSize k).sum) ++
    [fresh 3 0 l.tasks] ++
    l.domains.toList.zipIdx.flatMap fun (w, j) =>
      if w.getLsbD 63 then (List.range (blocksIn [l.gx, l.gy, l.gz] (blockOf w.toNat))).map fun i =>
        fresh (4 + j) i ((List.range l.tasks).countP fun t => l.blockIndex t w.toNat == i)
      else []
/-- The tile-handle table: the declared entries, every other entry zero (R284); `kept` lists the entries that stay as they are. -/
def State.writeTable (s : State) (d : DieId) (l : Launch) (i : Image) (kept : List Nat) : State :=
  (List.range (4 * l.hcount)).foldl (fun t j =>
    if kept.contains (j / 4) ∧ (i.of 1).all fun e => e.index ≠ j / 4 then t
    else match s.walk d l.asid ((l.htab.toNat + 8 * j) % 2 ^ 64) with
    | .ok k => t.writeBy (k.policy == 0) false (s.localPa (k.paOf ((l.htab.toNat + 8 * j) % 2 ^ 64))) (leBytes 8 ((((i.of 1).find? fun e => e.index == j / 4).map fun e => e.word (j % 4)).getD 0))
    | .error _ => t) s
/-- The entries that the exact image declares, written at each batch of exact tasks (R284, R340, R348). Assumption 68. -/
def State.writeExactTable (s : State) (d : DieId) (l : Launch) (i : Image) : State :=
  (i.of 1).foldl (fun t e => (List.range 4).foldl (fun t j =>
    let va := (l.htab.toNat + 32 * e.index + 8 * j) % 2 ^ 64
    match s.walk d l.asid va with
    | .ok k => t.writeBy (k.policy == 0) false (s.localPa (k.paOf va)) (leBytes 8 (e.word j))
    | .error _ => t) t) s
/-- Step 2 of R340 at a launch's first placement: the tables, the counters and the named scoreboards, which a sharer that is placed later leaves. -/
def State.setUp (s : State) (d : DieId) (l : Launch) (i : Image) : State :=
  let s := s.writeTable d l i []
  s.mapDie d fun y =>
    let mine := l.boards.filter fun j => !(y.placed.any fun m => m.boards.contains j)
    { (mine.foldl (fun y j => y.setBoard j 0) y) with counters := (if l.whole then s.wholeCounters d l else []) ++ y.counters }

/-- Step 2 of R340 at a later batch of the launch's own groups: the table is written again, but for entries that the exact image alone declares, whose tasks may
run. The scoreboards are cleared before the launch's release only (R316). Assumption 68. -/
def State.setUpAgain (s : State) (d : DieId) (l : Launch) (i : Image) : State :=
  s.writeTable d l i (((if l.exact = 0 then none else s.readImage l.exact).map fun x => (x.of 1).map (·.index)).getD [])

/-- A context as placed (R84, R340). -/
def Launch.context (l : Launch) (exact : Bool) (task group : Nat) (clock : Nat) : Ctx :=
  { Ctx.reset with
    st := .placed
    pc := BitVec.ofNat 18 (if exact then headIoff l.xhead + headEntry l.xhead else l.ioff + l.entry)
    s := Vector.ofFn fun i => if h : 1 ≤ i.val ∧ i.val ≤ 8 then l.args[i.val - 1]'(by omega) else 0
    grd := l.guard && !exact
    nm1 := if exact then 0 else BitVec.ofNat 2 (l.n - 1)
    task := BitVec.ofNat 24 task
    dmem := if exact then 0 else l.dmemOf task
    tol := if l.guard then l.tol else 0
    rseed := l.seed ^^^ BitVec.ofNat 64 task
    pts := BitVec.ofNat 64 clock
    accMask := if exact then headAcc l.xhead else l.accMask
    launch := some l.id
    group := group }
/-- Engine registers and patterns of a core without tasks (R79, R298). A context that has retired and is not Free yet counts here as a task present, whose
transfers may still use the sets: assumption 83. -/
def Core.fresh (k : Core) : Core :=
  if k.present.isEmpty then { k with recent := [], eng0 := .zero, eng1 := .zero, eng2 := .zero, patterns := patternsReset, patPend := [] } else k
/-- The accumulators of a mask hold zero (R79). -/
def Core.zeroAcc (k : Core) (mask : BitVec 8) : Core :=
  { k with acc := Vector.ofFn fun a => if mask.getLsbD a.val then .replicate 64 0 else k.acc[a] }
/-- `.barrier` bytes and `.data` sections of an image on a core (R340). -/
def State.loadData (s : State) (c : CoreId) (i : Image) : State :=
  let s := (i.of 5).foldl (fun t e => t.spadWrite c (e.word 0) (List.replicate 16 0)) s
  (i.of 6).foldl (fun t e => t.spadWrite c (e.word 0) (t.dataBytes (i.pa + e.word 2) (e.word 1))) s
/-- One group on its core's contexts: image, data, contexts, its level-1 counter, its current (R340, R321, R325). -/
def State.placeGroup (s : State) (l : Launch) (i : Image) (exact : Bool) (c : CoreId) (on_ : List CtxId) (group : Nat) (tasks : List Nat) : State :=
  let mask := headAcc i.head
  let s := s.mapCore c fun k => k.fresh.zeroAcc mask
  let s := (s.ensureImage c i).loadData c i
  let xs := on_.zip tasks
  let clock := (s.die c.die).clock
  let s := s.mapCore c fun k => xs.foldl (fun k (x, t) => k.setCtx x (l.context exact t group clock)) k
  (s.mapDie c.die fun d => { d.putCounter ⟨l.id, 1, group, tasks.length, tasks.length, 0, 0, false, false, []⟩ with
    batch := d.batch ++ xs.map fun (x, _) => (c, x) }).declare c (tasks.length * headCurrent i.head)
def Launch.tasksOf (l : Launch) (k : Nat) : List Nat := (List.range (l.groupSize k)).map (· + k * l.n)
def Launch.need (l : Launch) (k : Nat) : Need := ⟨l.id, l.coresident, l.n, l.accMask, (l.ioff, l.cbytes), l.groupSize k * l.current⟩
def Launch.exactNeed (l : Launch) : Need := ⟨l.id, l.coresident, 1, headAcc l.xhead, (headIoff l.xhead, headCbytes l.xhead), headCurrent l.xhead⟩

/-! ### Placement decisions (R338) -/

inductive Cand where
  | saved (g : SavedGroup)
  | launch (l : Launch)
deriving DecidableEq, Repr
/-- The launch has a group or an exact task still to place. -/
def Launch.hasWork (l : Launch) : Bool := !l.checked || decide (l.nextGroup < l.groups) || !l.exactTasks.isEmpty
/-- A hart has fetched an entry of the queue before a launch and has not dispatched it yet (R338, R352). -/
def Die.heldBack (d : Die) (l : Launch) : Bool := d.taken.any fun e => e.queue == l.queue && decide (e.id < l.id)
/-- The candidate of a queue (R338, R373). -/
def Die.candidate (d : Die) (q : Fin 64) : Option Cand :=
  match d.saved.find? fun g => d.launches.any fun l => l.id == g.launch && l.queue == q with
  | some g => some (.saved g)
  | none =>
    match d.launches.find? fun l => l.queue == q && l.hasWork with
    | none => none
    | some l => if d.heldBack l || l.serial && (d.launches.find? fun m => m.queue == q).map (·.id) != some l.id then none else some (.launch l)
/-- The effective level of a queue (R338). -/
def LQueue.level (q : LQueue) : Nat := min 7 (q.prio.toNat + q.boost)
/-- The candidates in rank: by level, then round robin after the queue that placed last (R338). -/
def Die.ranked (d : Die) : List (Fin 64 × Cand) :=
  ((List.range 8).reverse.flatMap fun lev => (List.range 64).map fun i => (lev, (⟨(d.lastQueue.val + 1 + i) % 64, Nat.mod_lt _ (by decide)⟩ : Fin 64))).filterMap
    fun (lev, q) => if d.queues[q].level = lev then (d.candidate q).map fun c => (q, c) else none

/-- The next group in order, past those already placed. -/
def skipAhead (ahead : List Nat) : Nat → Nat → Nat
  | 0, k => k
  | n + 1, k => if ahead.contains k then skipAhead ahead n (k + 1) else k
/-- A group counts as placed. -/
def Launch.placedGroup (l : Launch) (k : Nat) : Launch :=
  let a := k :: l.ahead
  let next := skipAhead a a.length l.nextGroup
  { l with nextGroup := next, ahead := a.filter fun j => decide (next ≤ j) }
/-- A group has been placed before. -/
def Launch.isPlaced (l : Launch) (k : Nat) : Bool := decide (k < l.nextGroup) || l.ahead.contains k
/-- One of several choices. -/
def choose {α : Type} (pick : Nat) (l : List α) : Option α := l[pick % max 1 l.length]?
/-- Step 1 of R340 on the record, at every batch. -/
def State.recordFits (s : State) (l : Launch) : Bool := recordFieldsOk fun j => s.word (l.recPa + 8 * j)
/-- The launch's next exact task, on any core that fits it (R351), where the record and the exact image pass their checks (R340). -/
def State.tryExact (s : State) (d : DieId) (l : Launch) (pick : Nat) (blocked : List CoreId) : Option State :=
  if !s.recordFits l then none else
  match l.exactTasks, s.readImage l.exact with
  | t :: rest, some i =>
    (choose pick ((s.namedCores d l.cores).filter fun c => !blocked.contains c && s.fits c l.exactNeed 0)).map fun c =>
      ((s.mapLaunch d l.id fun m => { m with exactTasks := rest }).writeExactTable d l i).placeGroup l i true c (s.core c).vacant (l.groups + t) [t]
  | _, _ => none
/-- A streamed launch's next group, on any core that fits it (R15). R15 allows any order of the groups: that a placement decision takes the lowest group not yet
placed is the model's choice, assumption 100. -/
def State.tryStreamed (s : State) (d : DieId) (l : Launch) (i : Image) (pick : Nat) (blocked : List CoreId) : Option State :=
  let first := !((s.die d).placed.any fun m => m.id == l.id)
  if first && !s.boardsFree d l then none
  else
    (choose pick ((s.namedCores d l.cores).filter fun c => !blocked.contains c && s.fits c (l.need l.nextGroup) 0)).map fun c =>
      let s := if first then s.setUp d l i else s.setUpAgain d l i
      (s.mapLaunch d l.id fun _ => l.placedGroup l.nextGroup).placeGroup l i false c (s.core c).vacant l.nextGroup (l.tasksOf l.nextGroup)
/-- Every group of a whole launch fits its core of R15 (R339). -/
def State.wholeFits (s : State) (d : DieId) (l : Launch) : Bool :=
  l.nextGroup == 0 && l.ahead.isEmpty && ((s.wholeCores d l).foldl (fun (acc : Bool × List (Fin 4 × Nat)) (c, k) =>
    let extra := ((acc.2.filter fun p => p.1 == c.field).map (·.2)).sum
    (acc.1 && s.fits c (l.need k) extra, (c.field, (l.need k).current) :: acc.2)) (true, [])).1 && s.boardsFree d l
/-- Every group of a whole launch, in one batch, on the cores of R15. Assumption 30. -/
def State.tryWhole (s : State) (d : DieId) (l : Launch) (i : Image) (blocked : List CoreId) : Option State :=
  let cs := s.wholeCores d l
  if (cs.all fun (c, _) => !blocked.contains c) && s.wholeFits d l then
    some (cs.foldl (fun t (c, k) => t.placeGroup l i false c (s.core c).vacant k (l.tasksOf k)) ((s.setUp d l i).mapLaunch d l.id fun _ => { l with nextGroup := l.groups }))
  else none

/-- The saved groups in one image go back to their core and contexts (R373). -/
def State.tryRestore (s : State) (g : SavedGroup) (blocked : List CoreId) : Option State :=
  let c := g.core
  let d := s.die c.die
  let gs := d.saved.filter fun h => h.core == c && h.area == g.area
  let ls := gs.filterMap fun h => (d.launches.find? fun l => l.id == h.launch).map fun l => (h, l)
  let xs := gs.flatMap (·.ctxs)
  let need (h : SavedGroup) (l : Launch) : Need := { (if l.groups ≤ h.group then l.exactNeed else l.need h.group) with
    n := 0, current := (h.ctxs.countP fun x => (s.savedCtx h l x).st == .placed) * (if l.groups ≤ h.group then headCurrent l.xhead else l.current) }
  let total := (ls.map fun (h, l) => (need h l).current).sum
  if !blocked.contains c && (xs.all fun x => (s.core c).isVacant x) && gs.all s.claimsFree && (s.core c).pctlState != 1 && (ls.all fun (h, l) => s.fits c (need h l) (total - (need h l).current)) then
    match readAll (ls.map fun (h, l) => s.readImage (if l.groups ≤ h.group then l.exact else l.image)) with
    | none => none
    | some is =>
      let s := is.foldl (fun t i => t.ensureImage c i) s
      let s := ls.foldl (fun t (h, l) => (t.restoreCtxs h l).restoreAcc c h.area (need h l).acc) (s.restoreCore g)
      let s := s.mapDie c.die fun d => { d with
        saved := d.saved.filter fun h => !(h.core == c && h.area == g.area)
        batch := d.batch ++ xs.map fun x => (c, x) }
      some ((gs.foldl (fun t h => h.ctxs.foldl (fun t x => t.restoreArms h x) t) s).declare c total)
  else none

/-- A candidate is tried: the state after the decision, or the cores it keeps from the others. A launch whose checks fail ends with one of the codes that
apply (R335; assumption 28). One whose record or image no longer passes the checks of a later batch (R340) stays where it is: assumption 84. While an exact task fits no
core, the launch's next surrogate group is tried: R351 places the exact task ahead of the remaining groups and does not say whether they wait for it; the model's
choice, assumption 100. -/
def State.tryCand (s : State) (d : DieId) (pick : Nat) (blocked : List CoreId) (c : Cand) : Except (List CoreId) (State × Bool) :=
  match c with
  | .saved g => match s.tryRestore g blocked with | some t => .ok (t, true) | none => .error []
  | .launch l =>
    let placedWork (m : Launch) : Except (List CoreId) (State × Bool) :=
      match s.tryExact d m pick blocked with
      | some t => .ok (t, true)
      | none =>
        match s.readImage m.image with
        | none => .error []
        | some i =>
          if m.groups ≤ m.nextGroup ∨ !s.recordFits m then .error []
          else
            match (if m.whole then s.tryWhole d m i blocked else s.tryStreamed d m i pick blocked) with
            | some t => .ok (t, true)
            | none => .error (if m.whole then s.namedCores d m.cores else [])
    let fails (codes : List Nat) : Except (List CoreId) (State × Bool) :=
      .ok (s.failLaunch d l (codes.getD ((Config.freeBits 64 s.tick 860000).toNat % codes.length) 0x1C), false)
    if l.checked then placedWork l
    else
      match s.launchChecks d l with
      | ([], m) =>
        match placedWork m with
        | .error e => .error e
        | .ok r => if (s.spaceCodes d m ++ s.lateCodes d l).isEmpty then .ok r else fails (s.spaceCodes d m ++ s.lateCodes d l)
      | (codes, _) => fails codes
/-- The launch of a candidate, when it is a whole launch whose groups do not all fit (R339). Assumption 33. -/
def State.waitsWhole (s : State) (d : DieId) (c : Cand) : Option Launch :=
  match c with
  | .saved _ => none
  | .launch l =>
    let m? := if l.checked then some l else match s.launchChecks d l with | ([], m) => some m | _ => none
    m?.filter fun m => m.whole && decide (m.nextGroup < m.groups) && !s.wholeFits d m
/-- The cores that waiting whole launches of a queue's own level, further down the rank, keep from its candidate (R339). -/
def State.equalHeld (s : State) (d : DieId) (q : Fin 64) (rest : List (Fin 64 × Cand)) : List CoreId :=
  rest.flatMap fun (r, c) =>
    if (s.die d).queues[r].level = (s.die d).queues[q].level then (match s.waitsWhole d c with | some m => s.namedCores d m.cores | none => []) else []
/-- Candidates in rank, until one is placed or ends. -/
def State.tryRanked (s : State) (d : DieId) (pick : Nat) : List CoreId → List (Fin 64 × Cand) → State
  | _, [] => s
  | blocked, (q, c) :: rest =>
    match s.tryCand d pick (blocked ++ s.equalHeld d q rest) c with
    | .error more => s.tryRanked d pick (blocked ++ more) rest
    | .ok (t, placed) => if placed then t.mapDie d fun y => { y with lastQueue := q, queues := y.queues.set q.val { y.queues[q] with boost := 0 } q.isLt } else t
/-- PLACEMENT_DECISION (R338): `pick` chooses among the cores that the rules allow. One batch is set up at a time (assumption 13). -/
def execPlacementDecision (d : DieId) (pick : Nat) (s : State) : Out :=
  .next (if (s.die d).batch.isEmpty then s.tryRanked d pick [] (s.die d).ranked else s)

/-- AGING_INTERVAL: a queue's candidate has waited `age` once more (R338). -/
def execAgingInterval (d : DieId) (q : Fin 64) (s : State) : Out :=
  let y := (s.die d).queues[q]
  .next (if y.age = 0 ∨ ((s.die d).candidate q).isNone then s
    else s.mapDie d fun z => { z with queues := z.queues.set q.val { y with boost := min 7 (y.boost + 1) } q.isLt })

/-! ### Release (R32, R340) -/

/-- A placed context becomes Ready, its clock at least the die's release clock (R17, R217). -/
def State.releaseCtx (s : State) (c : CoreId) (x : CtxId) : State :=
  if (s.ctx c x).st == .placed then
    let clock := (s.die c.die).clock
    let s := s.mapCore c fun k => k.mapCtx x fun y => { y with st := .ready, readyAt := k.cycle, pts := BitVec.ofNat 64 (max y.pts.toNat clock) }
    { s with rota := if s.rota.contains c then s.rota else s.rota ++ [c] }
  else s
/-- The first release of a launch: state 1 and tstart (R340). -/
def State.startLaunch (s : State) (d : DieId) (l : Launch) : State :=
  if l.started then s
  else ((s.otherWrite (l.recPa + 168) (leBytes 8 (Config.freeBits 64 s.tick 870000).toNat)).otherWrite (l.recPa + 160) (leBytes 8 (2 ^ 62))).mapLaunch d l.id fun m =>
    { m with started := true }
/-- A batch is released on one cycle. -/
def State.releaseBatch (s : State) (d : DieId) (b : List (CoreId × CtxId)) : State :=
  let ls := (s.die d).launches.filter fun l => b.any fun (c, x) => (s.ctx c x).launch == some l.id
  b.foldl (fun t (c, x) => t.releaseCtx c x) (ls.foldl (fun t l => t.startLaunch d l) s)
/-- A restored group has been released: PCTL.state returns to 0 and the core runs on (R354, R373). -/
def State.endRestore (s : State) (c : CoreId) : State :=
  if (s.core c).restoring then (s.endFreeze c).mapCore c fun k => { k with restoring := false, pctlState := 0 } else s
/-- BATCH_RELEASE (R32, R340). -/
def execBatchRelease (d : DieId) (s : State) : Out :=
  .next ((((s.die d).batch.map (·.1)).eraseDups.foldl State.endRestore (s.releaseBatch d (s.die d).batch)).mapDie d fun y => { y with batch := [] })

/-! ### Fetching (R332, R333) -/

def Die.queue (d : Die) (q : Fin 64) : LQueue := d.queues[q]
def State.mapQueue (s : State) (d : DieId) (q : Fin 64) (f : LQueue → LQueue) : State :=
  s.mapDie d fun y => { y with queues := y.queues.set q.val (f y.queues[q]) q.isLt }
/-- A queue parks: reason and PA, and the queue interrupt (R333). -/
def State.park (s : State) (d : DieId) (q : Fin 64) (reason fpa : Nat) : State :=
  (s.mapQueue d q fun y => { y with park := true, reason := BitVec.ofNat 3 reason, fpa := BitVec.ofNat 52 fpa }).interrupt d 0
/-- log2 of the ring's entries (R331). -/
def LQueue.lg (q : LQueue) : Nat := if 4 ≤ q.lsize.toNat ∧ q.lsize.toNat ≤ 16 then q.lsize.toNat else 4
/-- The PA of the head entry (R332). -/
def LQueue.entryPa (q : LQueue) : Nat := q.base.toNat + 16 * (q.head.toNat % 2 ^ q.lg)
/-- The head entry, with its kind and PA; or why the queue parks (R333). A ring outside local HBM, which QBASE does not allow, parks it as one that cannot be
read: assumption 85. -/
def State.headEntry (s : State) (q : LQueue) : Except (Nat × Nat) (Nat × Nat × Word × Word) :=
  let e := q.entryPa
  if 2 ^ q.lg < (q.tail - q.head).toNat then .error (2, 0)
  else
    match s.readFault e 16 with
    | some pa => .error (1, pa)
    | none =>
      let w := s.word e
      let kind := bits w 61 2
      let pa := bits w 0 52
      if !bit w 63 ∨ 1 < kind ∨ bits w 52 9 ≠ 0 ∨ pa % (if kind = 0 then 256 else 64) ≠ 0 ∨ !s.localHbm pa then .error (3, e)
      else .ok (kind, pa, BitVec.ofNat 64 w, BitVec.ofNat 64 (s.word (e + 8)))

/-! ### Graphs (R301, R302, R342) -/

/-- A node's own rules (R301, R302). -/
def State.nodeOk (s : State) (count i : Nat) (n : GNode) : Bool :=
  let w (j : Nat) := (n.w.toList.getD j 0).toNat
  bit (w 0) 63 && bits (w 0) 48 14 == 0 && bits (w 0) 16 16 == 0 && bits (w 1) 52 12 == 0 && bits (w 2) 52 12 == 0 && bits (w 4) 48 13 == 0 &&
    bits (w 5) 52 11 == 0 && w 7 == 0 && s.localHbm (bits (w 1) 0 52) && s.localHbm (bits (w 2) 0 52) &&
    s.localHbm (bits (w 5) 0 52) && (!bit (w 5) 63 || bits (w 5) 0 52 % 8 == 0) && decide (bits (w 3) 32 32 ≤ i) && n.succs.all fun j => decide (j < count)
/-- A node as read (R301). -/
def State.readNode (s : State) (pa : Nat) : GNode :=
  let w : Vector Word 8 := Vector.ofFn fun i => BitVec.ofNat 64 (s.word (pa + 8 * i.val))
  ⟨w, (List.range (bits w[0].toNat 0 16)).map fun i => Memory.read s.mem (bits w[2].toNat 0 52 + 4 * i) 4, 0, false, false, false⟩
/-- The nodes left after `n` rounds of taking away those without predecessors. -/
def peel (nodes : List (Nat × GNode)) : Nat → List (Nat × GNode)
  | 0 => nodes
  | n + 1 => peel (nodes.filter fun (i, _) => nodes.any fun (_, p) => p.succs.contains i) n
/-- The predecessors of a node. -/
def Graph.preds (g : Graph) (n : Nat) : List Nat := (g.nodes.zipIdx.filter fun (p, _) => p.succs.contains n).map (·.2)
/-- A predecessor that lists a node twice counts twice in npred (R302). -/
def Graph.predCount (g : Graph) (n : Nat) : Nat := (g.nodes.map fun p => p.succs.countP (· == n)).sum
/-- The graph rules of R302 and R342. -/
def State.graphOk (s : State) (g : Graph) : Bool :=
  let n := g.nodes.length
  (g.nodes.zipIdx.all fun (y, i) => s.nodeOk n i y && g.predCount i == bits y.w[0].toNat 32 16) &&
    (peel (g.nodes.zipIdx.map fun (y, i) => (i, y)) n).isEmpty &&
    (g.ranges.all fun (e, f) => g.ranges.all fun (e', f') => decide (e < f' ∨ e' < f ∨ (f ≤ f' ∧ e' ≤ e) ∨ (f' ≤ f ∧ e ≤ e'))) &&
    (g.nodes.map fun y => bits y.w[1].toNat 0 52).eraseDups.length == n

/-- A graph launch entry is fetched: every node is read once, and the graph starts, or ends as GRAPH_INVALID (R302, R342), as it
does when a node or a list cannot be read for poison: assumption 86. -/
def State.startGraph (s : State) (d : DieId) (q : Fin 64) (pa : Nat) : State :=
  let w (i : Nat) := s.word (pa + 8 * i)
  let count := bits (w 1) 0 32
  let base := bits (w 0) 0 52
  let id := (s.die d).nextId
  let entryOk := bits (w 0) 52 11 == 0 && bits (w 1) 32 32 == 0 && decide (1 ≤ count ∧ count ≤ 65536) && base % 64 == 0 &&
    ((List.range 4).all fun i => w (4 + i) == 0) && (s.readFault base (64 * count)).isNone
  let nodes := if entryOk then (List.range count).map fun i => s.readNode (base + 64 * i) else []
  let g : Graph := ⟨id, q, pa, bit (w 0) 63, nodes, none⟩
  let succOk := nodes.all fun n => n.succs.isEmpty || (s.readFault (bits n.w[2].toNat 0 52) (4 * n.succs.length)).isNone
  let s := s.mapDie d fun y => { y with nextId := y.nextId + 1 }
  if entryOk && succOk && s.graphOk g then
    (s.otherWrite (pa + 16) (leBytes 8 (2 ^ 62))).mapDie d fun y => { y with graphs := y.graphs ++ [g] }
  else s.endGraph d g 0 0x18

/-- The launch that an entry of kind 0 names joins its queue (R332, R334). -/
def State.addLaunch (s : State) (d : DieId) (q : Fin 64) (node : Option (Nat × Nat)) (pa : Nat) (tag : Word) (rot : Option (Nat × Nat)) : State :=
  s.mapDie d fun y => { y with launches := y.launches ++ [s.readRecord y.nextId q node pa tag rot], nextId := y.nextId + 1 }
/-- QUEUE_FETCH (R332, R333). -/
def execQueueFetch (d : DieId) (q : Fin 64) (s : State) : Out :=
  let y := (s.die d).queue q
  if !y.en ∨ y.park ∨ y.head = y.tail then .next s
  else
    match s.headEntry y with
    | .error (r, pa) => .next (s.park d q r pa)
    | .ok (kind, pa, _, tag) =>
      match s.readFault pa (if kind = 0 then 256 else 64) with
      | some f => .next (s.park d q 1 f)
      | none =>
        let s := s.mapQueue d q fun z => { z with head := z.head + 1 }
        .next (if kind = 0 then s.addLaunch d q none pa tag none else s.startGraph d q pa)

/-- A node may start its step (R344). -/
def State.nodeReady (s : State) (g : Graph) (n : Nat) (y : GNode) : Bool :=
  g.failed.isNone && !y.started && (g.preds n).all (fun p => g.counts p n) &&
    (!bit y.w[5].toNat 63 || decide (y.w[6].toNat + g.stepOf n ≤ s.word (bits y.w[5].toNat 0 52)))
/-- The argument word that a node rotates, and what its step adds (R344). -/
def GNode.rotation (y : GNode) (k : Nat) : Option (Nat × Nat) :=
  let w := y.w[4].toNat
  if bits w 0 16 = 0 then none else some (bits w 61 3, k % bits w 0 16 * bits w 16 32)
/-- NODE_START: a node's launch becomes a candidate (R302, R344). -/
def execNodeStart (d : DieId) (gr : Nat) (n : Nat) (s : State) : Out :=
  match (s.die d).graphs.find? fun g => g.id == gr with
  | none => .next s
  | some g =>
    match g.node n with
    | none => .next s
    | some y =>
      if !s.nodeReady g n y then .next s
      else
        let rec_ := bits y.w[1].toNat 0 52
        let s := s.mapDie d fun z => { z with graphs := z.graphs.map fun h =>
          if h.id = gr then { h with nodes := h.nodes.modify n fun v => { v with started := true } } else h }
        .next (if (s.readFault rec_ 256).isSome then s.nodeEnded d (some (gr, n)) 0x18
          else s.addLaunch d g.queue (some (gr, n)) rec_ 0 (y.rotation (g.stepOf n)))

end Sys2Proof.Machine
end

