-- ==== Sys2Proof/Machine/Preempt.lean ====
section
/-!
DEFINITION. Sys2Proof/Machine/Preempt.lean: pre-emption requests (R366 to R368), the save of a core group (R369), and kills of saved contexts on their image
(R355, R374).
-/
namespace Sys2Proof.Machine

/-! ### Requests (R366, R367) -/

/-- The core holds a task: a context that has retired holds none. -/
def Core.holdsTask (k : Core) : Bool := k.present.any fun x => (k.ctx x).st != .retired
/-- An area that a request may name: not 0, a multiple of 64 KiB, the 4 MiB in HBM homed on the core's die (R366). -/
def State.areaOk (s : State) (c : CoreId) (area : Nat) : Bool :=
  area != 0 && area % 65536 == 0 && s.localHbm area && s.localHbm (area + 0x3FFFFF) && s.homeDie area == c.die
/-- A context is held: it issues nothing (R367). -/
def Ctx.hold (y : Ctx) : Ctx := { y with held := true }
/-- The save begins (R367, R368): no context issues, and a wait of an uncommitted bundle is abandoned (R369). -/
def State.beginSave (s : State) (c : CoreId) : State :=
  (s.endFreeze c).mapCore c fun k => { k with pctlState := 2, pctlForce := false, running := none }
/-- Every context of the core is held or Retired, and at least one is held, or the switch is forced; no record is outstanding (R367, R368). -/
def Core.maySave (k : Core) : Bool :=
  k.pctlState == 1 && k.record.isNone &&
    (k.pctlForce || (k.present.all fun x => (k.ctx x).held || (k.ctx x).st == .retired)) && k.present.any fun x => (k.ctx x).st != .retired
/-- PCTL.area is written; the request is taken when none is under way, the core holds a task and the area is one, which the image then has (R366). A forced
switch counts in the visor (R328). Assumption 97. -/
def State.request (s : State) (c : CoreId) (area : BitVec 52) (force : Bool) : State :=
  if !s.coreEnabled c then s
  else
  let s := s.mapCore c fun k => { k with pctlArea := area }
  let k := s.core c
  if k.pctlState ≠ 0 ∨ !k.holdsTask ∨ !s.areaOk c area.toNat then s
  else
    let s := if force then s.visorAdd (visorWatchdog c.die 1) 1 else s
    let s := s.mapCore c fun k => { k with
      pctlState := 1
      pctlImg := area
      pctlForce := force
      ctxs := k.ctxs.map fun y => if y.st = .blocked then y.hold else y }
    if force && k.record.isNone then s.beginSave c else s.checkRequest c
/-- PCTL_REQ (R366). -/
def execPctlReq (c : CoreId) (area : BitVec 52) (s : State) : Out := .next (s.request c area false)
/-- PCTL_FORCE (R366, R368). -/
def execPctlForce (c : CoreId) (area : BitVec 52) (s : State) : Out := .next (s.request c area true)
/-- FORCED_SWITCH_TIMEOUT: PFTO has passed since the request and the save has not begun; an outstanding record is served first (R328, R367, R368). -/
def execForcedSwitchTimeout (c : CoreId) (s : State) : Out :=
  let k := s.core c
  .next (if k.pctlState ≠ 1 ∨ k.pctlForce then s
    else
      let s := s.visorAdd (visorWatchdog c.die 1) 1
      if k.record.isNone then s.beginSave c else s.mapCore c fun k => { k with pctlForce := true })

/-! ### Saving (R369) -/

/-- SAVE: the save begins (R367, R368). -/
def execSave (c : CoreId) (s : State) : Out := .next (if (s.core c).maySave then s.beginSave c else s)
/-- SAVE_COMPLETE: everything in flight has come to its end, and the image is written (R369); with no task left there is nothing to save. -/
def execSaveComplete (c : CoreId) (s : State) : Out :=
  let k := s.core c
  .next (if k.pctlState ≠ 2 ∨ !s.drained c then s
    else if k.liveCtxs.isEmpty then (s.endFreeze c).mapCore c fun k => { k with pctlState := 0 }
    else s.writeGroup c)

/-! ### Kills (R355, R374) -/

/-- A kill of the task on a context, or of every task of its core group (R355). -/
def State.kreqLive (s : State) (d : DieId) (core : BitVec 8) (x : CtxId) (grp : Bool) : State :=
  let c := coreOn d core.toNat
  let s := s.mapDie d fun y => { y with kreqImg := false, kreqGrp := grp, kreqCtx := BitVec.ofNat 2 x.val, kreqCore := core }
  let y := s.ctx c x
  let mates := ctxIds.filter fun z => x = z || (grp && (s.ctx c z).launch == y.launch && (s.ctx c z).group == y.group)
  if y.st = .free ∨ y.st = .saved ∨ y.st = .retired then s else mates.foldl (fun t z => t.killTask c z (BitVec.ofNat 8 Code.killRequest)) s
/-- KREQ_LIVE (R355). -/
def execKreqLive (d : DieId) (core : BitVec 8) (x : CtxId) (grp : Bool) (s : State) : Out := .next (s.kreqLive d core x grp)

/-- The engine records of an image without those of a context (R370). -/
def State.dropEngineRecords (s : State) (area : Nat) (x : CtxId) : State :=
  let n := bits (s.word (area + 16)) 32 16
  let recs := (List.range n).map fun i => Memory.bytes s.mem (area + 0x80000 + 0x400 * i) 0x400
  let keep := recs.filter fun b => bits (leNat ((b.drop 0x80).take 8)) 4 2 != x.val
  let s := s.otherWrite (area + 0x80000) ((keep.flatten ++ List.replicate (0x400 * n) 0).take (0x400 * n))
  s.otherWrite (area + 20) (leBytes 2 keep.length)
/-- The mitten-buffer entries of an image without those of a context, whose buffer is discarded (R231, R370). -/
def State.dropMitten (s : State) (area : Nat) (owners : List CtxId) (x : CtxId) : State :=
  let n := owners.length
  let keep := owners.zipIdx.filter fun (p : CtxId × Nat) => p.1 != x
  let put (s : State) (at_ : Nat) : State :=
    s.otherWrite at_ (((keep.flatMap fun (p : CtxId × Nat) => Memory.bytes s.mem (at_ + 8 * p.2) 8) ++ List.replicate (8 * n) 0).take (8 * n))
  (put (put s (area + 0x100000)) (area + 0x140000)).otherWrite (area + 0x310) (leBytes 8 keep.length)
/-- A stopped command of a killed context ends with KILLED (R252): the barriers of the saved core stand in the image (R372), and its engine is the core's. -/
def State.killSavedCommand (s : State) (g : SavedGroup) (q : Command) : State :=
  let s := s.mapCore g.core fun k => k.setErr q.eng errKilled
  if q.eng = .xpose then
    let x := xparam q.set
    let l := (s.die g.core.die).launches.find? fun l => l.id == g.launch
    let s := ((List.range x.p).filter fun r => !q.served.contains r).foldl (fun s r =>
      if !bit x.bar 63 then s
      else if x.map1 then
        match s.rankMember g.core x r with
        | none => s
        | some (y, w) => s.arriveMember y (some g.launch) (memberOf w) true
      else
        match s.rankCore g.core.die l x r with
        | none => s
        | some k => s.updateBarrier k (some g.launch) (bits x.bar 0 21) .arriveErr 1) s
    if bit x.sbar 63 then s.updateBarrier g.core (some g.launch) (bits x.sbar 0 21) .arriveErr 1 else s
  else
    let t := templateOf q.set
    let f := setWord q.set 6
    if bit f 63 then s.updateBarrier g.core (some g.launch) (bits f 0 21) .error (t.total q.help q.n - q.decs) else s

/-- A saved group after one of its contexts has gone; an emptied group goes, and with the last of an image the core's state returns to 0. -/
def Die.dropSaved (d : Die) (g : SavedGroup) (x : CtxId) : Die :=
  { d with
    saved := (d.saved.map fun h =>
      if h.core ≠ g.core ∨ h.area ≠ g.area then h
      else
        let h := { h with errs := h.errs.filter fun e => e.1 != x, owners := h.owners.filter fun o => o.1 != x, cmds := h.cmds.filter fun q => h.errs.any fun e => e.2.1 == q.tag && e.1 != x }
        if h.launch = g.launch then { h with ctxs := h.ctxs.filter fun y => y != x } else h).filter fun h => !h.ctxs.isEmpty
    arms := d.arms.filter fun a => !(a.saved == some g.area && a.core == g.core && a.ctx == x) }

/-- The kill of a saved context takes effect on its image, with no restore; its task is over (R17, R232, R252, R320, R323, R349, R374, R375), and the exact task
of a surrogate counts before it leaves its domains (R351). Assumption 54. -/
def State.killSaved (s : State) (g : SavedGroup) (x : CtxId) : State :=
  match (s.die g.core.die).launches.find? fun l => l.id == g.launch with
  | none => s
  | some l =>
    let c := g.core
    let y := s.savedCtx g l x
    if y.st = .retired then s
    else
      let cmds := ((List.range (bits (s.word (g.area + 16)) 32 16)).map fun i => s.readEngine (g.area + 0x80000 + 0x400 * i) 0).filter fun q => q.ctx == x
      let s := cmds.foldl (fun t q => t.killSavedCommand g q) s
      let s := (s.dropEngineRecords g.area x).dropMitten g.area (g.owners.map (·.1)) x
      let h := s.word (g.area + 16)
      let s := s.otherWrite (g.area + 16) (leBytes 1 (h % 256 - 2 ^ x.val - (if bit h (4 + x.val) then 2 ^ (4 + x.val) else 0)))
      let s := s.mapDie c.die fun d => d.dropSaved g x
      let task := y.task.toNat
      let s := s.mapLaunch c.die l.id fun z => z.endTask task
      let s := if y.grd then s.mapLaunch c.die l.id fun z => { z with gFault := sat32 z.gFault }.sendExact task
        else (s.mapLaunch c.die l.id fun z => { z with killed := z.killed + 1 }).writeKill c.die
          (killRecord l.recPa task c x (BitVec.ofNat 8 Code.killRequest) y.pc.toNat [])
      let s := s.leaveDomains c y true
      let s := if s.word g.area = l.recPa then s.otherWrite (g.area + 0x300) (leBytes 16 ((s.die c.die).counter l.id 1 g.group).toNat) else s
      let s := s.mapCore c fun k =>
        let k := if (k.ctx x).st = .saved then k.mapCtx x fun z => { z with st := .free, status := if y.grd then .discarded else .killed } else k
        { k with pctlState := if k.pctlState = 3 ∧ !((s.die c.die).saved.any fun h => h.core == c) then 0 else k.pctlState }
      let s := s.mapLaunch c.die l.id fun z => if l.isExact y then { z with exactFreed := z.exactFreed + 1 } else { z with freed := z.freed + 1 }
      let s := if y.grd then s else s.trigger c.die l.id task
      (s.wakeAll (s.coresOf c.die l.id)).tryRetire c.die l.id

/-- A kill of a context of the group saved from a core whose image lies at `area`, or of every context of its group (R355); each kill sees the group as the
kills before it have left it. -/
def State.kreqImage (s : State) (d : DieId) (core : BitVec 8) (x : CtxId) (grp : Bool) (area : BitVec 36) : State :=
  let c := coreOn d core.toNat
  let s := s.mapDie d fun y => { y with kreqImg := true, kreqGrp := grp, kreqCtx := BitVec.ofNat 2 x.val, kreqCore := core, kreqArea := area }
  let gs := (s.die d).saved.filter fun g => g.core == c && g.area == area.toNat * 65536
  let mine := gs.filter fun g => g.ctxs.contains x
  let all := if mine.isEmpty then gs else mine
  let ts := if grp then all.flatMap fun g => g.ctxs.map fun y => (g, y) else mine.map fun g => (g, x)
  ts.foldl (fun t (g, y) => match (t.die d).saved.find? fun h => h.core == c && h.area == g.area && h.launch == g.launch with
    | some h => t.killSaved h y
    | none => t) s
/-- KREQ_IMAGE (R355). -/
def execKreqImage (d : DieId) (core : BitVec 8) (x : CtxId) (grp : Bool) (area : BitVec 36) (s : State) : Out := .next (s.kreqImage d core x grp area)

end Sys2Proof.Machine
end

