-- ==== Sys2Proof/Machine/Traps.lean ====
section
/-!
DEFINITION. Sys2Proof/Machine/Traps.lean: the gauntlet and the service limit (R355, R364), the return from a record through RCTL and ECTL (R360 to R363),
the trap queue's head (R358), and the cuff core's window (R358, R359).
-/
namespace Sys2Proof.Machine

/-! ### Bundles in instruction memory -/

/-- The words of the bundle at a PC (R55, R57). -/
def Core.fetchWords (k : Core) (pc : BitVec 18) : List Word32 :=
  let w := pc.toNat / 4
  (List.range (k.bundleLen w)).map fun i => k.iword ((w + i) % 65536)
/-- The words that a context issues next: those of its replay record, or those at its PC (R361, R373). -/
def Core.nextWords (k : Core) (x : CtxId) : List Word32 :=
  match (k.ctx x).replay with
  | some r => r.words
  | none => k.fetchWords (k.ctx x).pc
/-- One bundle of the context has committed, or was advanced, since each pending `%fmtn` value was set (R43, R362). -/
def Ctx.stepFmt (y : Ctx) : Ctx :=
  let step := y.fmtPend.map fun p => { p with left := p.left - 1 }
  let done := step.filter fun p => p.left == 0
  { y with
    fmtn := (done.getLast?.map (·.val)).getD y.fmtn
    fmtPend := step.filter fun p => p.left != 0 }

/-! ### Limits (R355, R364) -/

/-- The row of R354, counted from 1 (R356). -/
def FreezeCause.row : FreezeCause → Nat
  | .reply => 1 | .staging => 2 | .contention => 3 | .walk => 4 | .fence | .fenceMatrix => 5 | .wsig => 6 | .random => 7 | .matrix => 8 | .slot => 9 | .record => 10 | .group => 11 | .send => 12
/-- The causes that the gauntlet counts (R354), and the wait for a send queue (R236). -/
def FreezeCause.counted (f : FreezeCause) : Bool := decide (f.row ≤ 8) || f == .send
/-- The gauntlet limit in clock periods (R355). -/
def Die.gauntLimit (d : Die) : Nat := 2 ^ min 28 (max 16 d.gauntLg.toNat)
/-- Where the bundle of a freeze is: its PC and the next one. It may await an access, or the results of a collective (R71, R388). -/
def State.frozenAt (s : State) (c : CoreId) (f : Freeze) : BitVec 18 × BitVec 18 :=
  let k := s.core c
  let y := k.ctx f.ctx
  match f.accs.findSome? k.access, s.pkg.colls.find? fun o => o.core == c && f.accs.contains o.acc with
  | some a, _ => (a.pc, a.next)
  | none, some o => (o.pc, o.next)
  | none, none => (y.pc, pcPlus y.pc (k.bundleLen (y.pc.toNat / 4)))
/-- GAUNTLET_TIMEOUT: a counted freeze has reached the limit, and FREEZE_TIMEOUT is raised (R71, R355, R357). -/
def execGauntletTimeout (c : CoreId) (s : State) : Out :=
  let k := s.core c
  match k.freeze with
  | none => .next s
  | some f =>
    if !f.cause.counted || k.record.isSome || decide (f.count < (s.die c.die).gauntLimit) then .next s
    else
      let (pc, next) := s.frozenAt c f
      .next ((s.visorAdd (visorWatchdog c.die 0) 1).takeTrap
        ⟨0, c, f.ctx, 0, if f.committed then 1 else 0, BitVec.ofNat 8 Code.freezeTimeout, next, pc, 0, BitVec.ofNat 64 f.cause.row⟩
        (if f.committed then k.fetchWords pc else k.nextWords f.ctx))
/-- HANDLER_TIMEOUT: a src 0 or 1 record has not been resumed within SVCLIM (R364). Assumption 7. -/
def execHandlerTimeout (c : CoreId) (s : State) : Out :=
  match (s.core c).record with
  | none => .next s
  | some r => .next (if (s.die c.die).svclim = 0 then s else (s.killTask c r.rcd.ctx (BitVec.ofNat 8 Code.handlerTimeout)).closeRecord c)

/-! ### RCTL (R360 to R362) -/

/-- A core's record waits for the handler that COMMIT brings (R416). -/
def State.lateRecord (s : State) (c : CoreId) : Bool := (s.trapQ c.cluster).isLate fun r => r.core == c && decide (r.src.toNat ≤ 1)
/-- A command's engine record waits for the handler that COMMIT brings (R416). -/
def State.lateCommand (s : State) (c : CoreId) (tag : Word32) : Bool :=
  (s.trapQ c.cluster).isLate fun r => r.core == c && decide (2 ≤ r.src.toNat) && r.info == tag.setWidth 64
/-- The record that the handler may end: one that stands in the trap queue (R357, R360), and does not wait for the next handler (R416). -/
def State.served (s : State) (c : CoreId) : Option Outstanding := if s.lateRecord c then none else (s.core c).record.filter (·.placed)
/-- The bundle of a src 0 record is issued again, as the window left it (R359, R361). -/
def State.keepBundle (s : State) (c : CoreId) (o : Outstanding) (always : Bool) : State :=
  if o.rcd.src ≠ 0 ∨ o.words.isEmpty then s
  else if always || o.words.take ((s.core c).nextWords o.rcd.ctx).length != (s.core c).nextWords o.rcd.ctx then
    s.mapCtx c o.rcd.ctx fun y => { y with replay := some ⟨o.words, o.rcd.smask, o.rcd.code⟩ }
  else s
/-- A freeze goes on with a new gauntlet count (R355, R360). -/
def State.recount (s : State) (c : CoreId) : State := s.mapCore c fun k => { k with freeze := k.freeze.map fun f => { f with count := 0 } }

/-- RESUME (R360, R361). Assumption 37. -/
def State.resume (s : State) (c : CoreId) : State :=
  match s.served c with
  | none => s
  | some o => ((s.keepBundle c o false).closeRecord c).recount c
/-- ADVANCE (R360, R362): the context goes on at next. -/
def State.advance (s : State) (c : CoreId) : State :=
  match s.served c with
  | none => s
  | some o =>
    if o.rcd.src ≠ 0 then s.resume c
    else
      let s := s.closeRecord c
      let s := match (s.core c).freeze with
        | some f => if f.ctx = o.rcd.ctx ∧ !f.committed then s.endFreeze c else s
        | none => s
      s.mapCtx c o.rcd.ctx fun y => { y.stepFmt with pc := o.rcd.next, via := none, replay := none }
/-- KILL (R360, R374). -/
def State.killRecord (s : State) (c : CoreId) (kcode : BitVec 8) : State :=
  match s.served c with
  | none => s
  | some o => (s.killTask c o.rcd.ctx (if kcode = 0 then o.rcd.code else kcode)).closeRecord c
/-- The area that a save of a core writes: that of the request under way, or PCTL.area (R366). Assumption 97. -/
def Core.saveArea (k : Core) : BitVec 52 := if k.pctlState = 0 then k.pctlArea else k.pctlImg
/-- SWITCH (R360, R368): the save begins at once, and the visor counts a forced switch (R328); without an area to save into the write has no effect (R366). -/
def State.switchOut (s : State) (c : CoreId) : State :=
  match s.served c with
  | none => s
  | some o =>
    if !s.areaOk c (s.core c).saveArea.toNat then s
    else ((((s.mapCore c fun k => { k with pctlImg := k.saveArea }).visorAdd (visorWatchdog c.die 1) 1).keepBundle c o true).closeRecord c).beginSave c

/-- RESUME (R360). -/
def execResume (c : CoreId) (s : State) : Out := .next (s.resume c)
/-- ADVANCE (R360). -/
def execAdvance (c : CoreId) (s : State) : Out := .next (s.advance c)
/-- KILL (R360). -/
def execKill (c : CoreId) (kcode : BitVec 8) (s : State) : Out := .next (s.killRecord c kcode)
/-- SWITCH (R360). -/
def execSwitch (c : CoreId) (s : State) : Out := .next (s.switchOut c)

/-! ### ECTL (R363) -/

/-- A stopped command goes on under the present tables (R250, R363). -/
def State.replayCommand (s : State) (c : CoreId) (tag : Word32) : State :=
  if s.lateCommand c tag then s else s.mapCore c fun k => k.mapCommand tag fun q => { q with stopped := false, waiting := none }
/-- A stopped command ends with STAT.err 0x05 (R250, R363). -/
def State.abandonCommand (s : State) (c : CoreId) (tag : Word32) : State :=
  match (s.core c).command tag with
  | none => s
  | some q => if !q.stopped || s.lateCommand c tag then s else if q.eng = .xpose then s.failXpose c q errPageFault else s.failCopy c q errPageFault
/-- REPLAY (R363). -/
def execReplay (c : CoreId) (tag : BitVec 32) (s : State) : Out := .next (s.replayCommand c tag)
/-- ABANDON (R363). -/
def execAbandon (c : CoreId) (tag : BitVec 32) (s : State) : Out := .next (s.abandonCommand c tag)

/-! ### The trap queue (R235, R358) -/

/-- The record of a core that waits for a place takes one. -/
def State.placeCore (s : State) (c : CoreId) : State :=
  match (s.core c).record with
  | some o =>
    if o.placed || (s.trapQ c.cluster).full then s
    else (s.placeRecord o.rcd).mapCore c fun k => { k with record := some { o with rcd := { o.rcd with seq := (s.trapQ c.cluster).seq }, placed := true } }
  | none => s
/-- The records of a core's stopped commands that wait for a place take one. -/
def State.placeCommands (s : State) (c : CoreId) : State :=
  (s.core c).copyq.foldl (fun t q => match q.waiting with
    | some r => if (t.trapQ c.cluster).full then t else (t.placeRecord r).mapCore c fun k => k.mapCommand q.tag fun y => { y with waiting := none }
    | none => t) s
/-- The cores of a cluster. -/
def coresIn (cl : ClusterId) : List CoreId := (List.finRange 512).filter fun c => c.cluster == cl
/-- TQHEAD is written: the records before it leave, and waiting ones are placed (R235, R358; assumption 25); the records for the next handler stay (R416). -/
def State.writeHead (s : State) (cl : ClusterId) (v : Word) : State :=
  let q := s.trapQ cl
  let n := (v - q.head).toNat
  if q.records.length - q.late < n then s
  else
    let s := s.setTrapQ cl { q with records := q.records.drop n, head := v }
    (coresIn cl).foldl State.placeCommands ((coresIn cl).foldl State.placeCore s)
/-- TQHEAD_WRITE (R358). -/
def execTqheadWrite (cl : ClusterId) (v : Word) (s : State) : Out := .next (s.writeHead cl v)

/-! ### The window (R358, R359) -/

/-- Word `i` of 64 bits of a wider register is replaced. -/
def putWord (w v i : Nat) (x : Word) : BitVec w := BitVec.ofNat w (v - bits v (64 * i) 64 * 2 ^ (64 * i) + x.toNat * 2 ^ (64 * i))
/-- A special register by index; those that R84 marks RO, and an invalid `%fmtn`, are left (R359). While a value is pending, the slot holds it (R371). -/
def Ctx.putSpecial (y : Ctx) (i : Nat) (v : Word) : Ctx :=
  match i with
  | 4 =>
    if v.toNat < 32 ∧ fmtnValid (v.setWidth 5) then
      match y.fmtPend.getLast? with
      | none => { y with fmtn := v.setWidth 5 }
      | some p => { y with fmtPend := y.fmtPend.dropLast ++ [{ p with val := v.setWidth 5 }] }
    else y
  | 5 => { y with tol := v }
  | 6 => { y with rseed := v }
  | 9 => { y with lease := v.setWidth 16 }
  | _ => y
/-- A word of a context's registers, in the layout of the context image (R359, R371). R59's table does not say how a PC written so is fetched: the model takes
its word as not reached by a transfer, and a PC as a multiple of 4: assumption 74. -/
def Ctx.putWindow (y : Ctx) (o : Nat) (v : Word) : Ctx :=
  let i := o / 8
  if o < 0x200 then (if i = 0 then y else { y with s := y.s.setIfInBounds i v })
  else if o < 0x2C0 then { y with p := y.p.setIfInBounds (i - 0x40) v }
  else if o < 0x310 then y.putSpecial (i - 0x58) v
  else if o = 0x310 then { y with pc := BitVec.ofNat 18 (v.toNat / 4 * 4), via := none }
  else if o = 0x318 then { y with loop := .ofWord v }
  else if o = 0x320 then { y with dbarPend := dbarOf v.toNat }
  else if o = 0x330 then { y with runCount := v.toNat }
  else if o = 0x338 then
    match y.fmtPend.getLast? with
    | none => y
    | some p => { y with fmtPend := y.fmtPend.dropLast ++ [{ p with left := bits v.toNat 8 3 }] }
  else if 0x400 ≤ o ∧ o < 0x600 then
    { y with sc := y.sc.setIfInBounds ((o - 0x400) / 64) (putWord 512 ((y.sc.toList.getD ((o - 0x400) / 64) 0).toNat) (i % 8) v) }
  else if 0x1000 ≤ o ∧ o < 0x3000 then
    { y with v := y.v.setIfInBounds ((o - 0x1000) / 256) (putWord 2048 ((y.v.toList.getD ((o - 0x1000) / 256) 0).toNat) (i % 32) v) }
  else y
/-- The shadow set that a context claims, at its place of the context's registers (R371). -/
def shadowAt (o : Nat) : Option (Eng × Nat) :=
  if 0x380 ≤ o ∧ o < 0x400 then some (.copy, (o - 0x380) / 8)
  else if 0xB00 ≤ o ∧ o < 0xB80 then some (.xft, (o - 0xB00) / 8)
  else if 0xB80 ≤ o ∧ o < 0xC00 then some (.xpose, (o - 0xB80) / 8)
  else none
/-- A word of the registers of context `x` at offset `o` of its 16 KiB (R358). -/
def Core.putContext (k : Core) (x : CtxId) (o : Nat) (v : Word) : Core :=
  match shadowAt o with
  | some (e, w) => if (k.eng e).claim = some x then k.setEng e ((k.eng e).putShadow w v) else k
  | none => k.mapCtx x fun y => y.putWindow o v
/-- A word of an accumulator (R87, R358). -/
def Core.putAcc (k : Core) (o : Nat) (v : Word) : Core :=
  let a : Fin 8 := ⟨o / 0x4000 % 8, Nat.mod_lt _ (by decide)⟩
  let r : Fin 64 := ⟨o / 256 % 64, Nat.mod_lt _ (by decide)⟩
  { k with acc := k.acc.set a.val (k.acc[a].set r.val (putWord 2048 k.acc[a][r].toNat (o / 8 % 32) v) r.isLt) a.isLt }
/-- A word of an engine's sets: the active one, then the shadow (R358). R359 takes an engine set as written, although STAT of engine 1 is read-only elsewhere
(R4, R165): assumption 75. -/
def Core.putEngine (k : Core) (e : Eng) (w : Nat) (v : Word) : Core :=
  k.setEng e (if w < 16 then { k.eng e with active := (k.eng e).active.setIfInBounds w v } else (k.eng e).putShadow (w - 16) v)
/-- Two words of the bundle record, 16 words of 32 bits (R358, R359). -/
def Outstanding.putWords (o : Outstanding) (i : Nat) (v : Word) : Outstanding :=
  { o with words := (((o.words ++ List.replicate 16 0).take 16).set i (v.setWidth 32)).set (i + 1) (v.extractLsb' 32 32) }
/-- A write of 8 aligned bytes to the window of a frozen core (R359). The pattern table is not among what the window changes (R298). -/
def Core.putFrozen (k : Core) (o : Nat) (v : Word) : Core :=
  if 0x200000 ≤ o ∧ o < 0x220000 then k.putAcc (o - 0x200000) v
  else if 0x400000 ≤ o ∧ o < 0x410000 then k.putContext ⟨(o - 0x400000) / 0x4000 % 4, Nat.mod_lt _ (by decide)⟩ ((o - 0x400000) % 0x4000) v
  else if 0x500000 ≤ o ∧ o < 0x500100 then k.putEngine .copy ((o - 0x500000) / 8) v
  else if 0x500100 ≤ o ∧ o < 0x500200 then k.putEngine .xft ((o - 0x500100) / 8) v
  else if 0x500200 ≤ o ∧ o < 0x500300 then k.putEngine .xpose ((o - 0x500200) / 8) v
  else if 0x600040 ≤ o ∧ o < 0x600080 then { k with record := k.record.map fun r => r.putWords ((o - 0x600040) / 4) v }
  else k
/-- RCTL as a register (R360). -/
def State.writeRctl (s : State) (c : CoreId) (v : Word) : State :=
  match bits v.toNat 0 3 with
  | 1 => s.resume c
  | 2 => s.advance c
  | 3 => s.killRecord c (v.extractLsb' 56 8)
  | 4 => s.switchOut c
  | _ => s
/-- ECTL as a register (R363). -/
def State.writeEctl (s : State) (c : CoreId) (v : Word) : State :=
  match bits v.toNat 0 2 with
  | 1 => s.replayCommand c (v.extractLsb' 32 32)
  | 2 => s.abandonCommand c (v.extractLsb' 32 32)
  | _ => s
/-- WINDOW_WRITE: 8 naturally aligned bytes (R358, R359), which every path observes in a scratchpad from now on; a core that is fused off has no window (R10). -/
def execWindowWrite (c : CoreId) (off : BitVec 24) (v : Word) (s : State) : Out :=
  let o := off.toNat / 8 * 8
  .next (if !s.coreEnabled c then s
    else if o < spadSize then ((s.spadWrite c o (leBytes 8 v.toNat)).mapCore c fun k => k.settleRange (spadBase c + o) 8).wake c
    else if o = 0x600000 then s.writeRctl c v
    else if o = 0x600008 then s.writeEctl c v
    else if (s.core c).record.isSome then s.mapCore c fun k => k.putFrozen o v
    else s)

/-! ### What the cuff core reads (R356, R358, R359) -/

/-- The eight bytes at an offset of some pieces, unlisted ones zero. -/
def pieceWord (o : Nat) (ps : List (Nat × List Byte)) : Word :=
  BitVec.ofNat 64 (leNat ((List.range 8).map fun i => (ps.findSome? fun p => if p.1 ≤ o + i then p.2[o + i - p.1]? else none).getD 0))
/-- The register that a word of a context's layout belongs to (R371). -/
def windowDest (o : Nat) : Option Dest :=
  if o < 0x200 then some (.s ⟨o / 8 % 64, Nat.mod_lt _ (by decide)⟩)
  else if o < 0x2C0 then some (.p ⟨(o - 0x200) / 8 % 24, Nat.mod_lt _ (by decide)⟩)
  else if o < 0x310 then ([SpecReg.ctx, .core, .task, .dmem, .fmtn, .tol, .rseed, .rpos, .pts, .lease][(o - 0x2C0) / 8]?).map .spec
  else if 0x400 ≤ o ∧ o < 0x600 then some (.sc ⟨(o - 0x400) / 64 % 8, Nat.mod_lt _ (by decide)⟩)
  else if 0x1000 ≤ o ∧ o < 0x3000 then some (.v ⟨(o - 0x1000) / 256 % 32, Nat.mod_lt _ (by decide)⟩)
  else none
/-- The result of a register is still in flight (R359). -/
def Core.inFlightTo (k : Core) (x : CtxId) (d : Dest) : Bool := k.inflight.any fun e => e.ctx == x && e.dest == d && !e.landed && !e.dead
/-- A word of a frozen core's registers, accumulators, engine sets or bundle record; an unsettled register, or an accumulator that the matrix unit still
writes, reads as any value (R89, R359). -/
def State.readFrozen (s : State) (c : CoreId) (o : Nat) : Word :=
  let k := s.core c
  let set (e : Eng) (i : Nat) : Word := k.engWord e ⟨i % 16, Nat.mod_lt _ (by decide)⟩ (decide (16 ≤ i))
  if 0x200000 ≤ o ∧ o < 0x220000 then
    if (k.mtx.bind (·.acc)).any (fun a => a.val == (o - 0x200000) / 0x4000) then Config.freeBits 64 s.tick (950000 + o)
    else BitVec.ofNat 64 (bits ((k.acc.toList.getD ((o - 0x200000) / 0x4000) (.replicate 64 0)).toList.getD ((o - 0x200000) / 256 % 64) 0).toNat (64 * (o / 8 % 32)) 64)
  else if 0x400000 ≤ o ∧ o < 0x410000 then
    let x : CtxId := ⟨(o - 0x400000) / 0x4000 % 4, Nat.mod_lt _ (by decide)⟩
    let a := (o - 0x400000) % 0x4000
    if (windowDest a).any (k.inFlightTo x) then Config.freeBits 64 s.tick (960000 + a)
    else pieceWord a (ctxPieces k x ((s.die c.die).arms.filter fun a => a.core == c && a.ctx == x && a.saved.isNone))
  else if 0x500000 ≤ o ∧ o < 0x500100 then set .copy ((o - 0x500000) / 8)
  else if 0x500100 ≤ o ∧ o < 0x500200 then set .xft ((o - 0x500100) / 8)
  else if 0x500200 ≤ o ∧ o < 0x500300 then set .xpose ((o - 0x500200) / 8)
  else if 0x600040 ≤ o ∧ o < 0x600080 then
    match k.record with
    | some r => (r.words.getD ((o - 0x600040) / 4 + 1) 0) ++ (r.words.getD ((o - 0x600040) / 4) 0)
    | none => 0
  else 0
/-- What the cuff core reads in a core's window: its scratchpad and, as no rule limits them, its patterns at all times; the rest only while the core is frozen
for a record, and 0 otherwise (R358, R359). RCTL and ECTL are write-only. Assumption 76. -/
def State.windowRead (s : State) (c : CoreId) (off : BitVec 24) : Word :=
  let o := off.toNat / 8 * 8
  if !s.coreEnabled c then 0
  else if o < spadSize then BitVec.ofNat 64 (s.spadRead c o 8)
  else if 0x500400 ≤ o ∧ o < 0x500600 then
    BitVec.ofNat 64 (bits ((s.core c).patterns.toList.getD ((o - 0x500400) / 64) 0).toNat (64 * (o / 8 % 8)) 64)
  else if (s.core c).record.isSome then s.readFrozen c o
  else 0

/-- The words of a record (R356); words 4 to 7 are reserved. -/
def Record.word (r : Record) (i : Nat) : Word :=
  match i with
  | 0 => BitVec.ofNat 64 (r.seq.toNat * 2 ^ 32 + r.core.val * 2 ^ 21 + r.ctx.val * 2 ^ 19 + r.smask.toNat * 2 ^ 11 + r.src.toNat * 2 ^ 8 + r.code.toNat)
  | 1 => BitVec.ofNat 64 (r.next.toNat * 2 ^ 32 + r.pc.toNat)
  | 2 => r.addr
  | 3 => r.info
  | _ => 0
/-- What the cuff core reads of its trap queue, by the offset from 0x7000_0000: 32 records in a ring by the head and tail counts, then TQTAIL and TQHEAD
(R358); a place without a record reads as any value. Assumption 76. -/
def State.trapRead (s : State) (cl : ClusterId) (off : Nat) : Word :=
  let q := s.trapQ cl
  if off / 8 * 8 = 0x800 then q.tail
  else if off / 8 * 8 = 0x808 then q.head
  else if 0x800 ≤ off then 0
  else
    match q.records[(off / 64 + 32 - q.head.toNat % 32) % 32]? with
    | some r => r.word (off / 8 % 8)
    | none => Config.freeBits 64 s.tick (970000 + off / 8)
/-- The cuff core is interrupted whenever TQHEAD differs from TQTAIL (R358), but for the records that wait for its next handler (R416). -/
def State.cuffInterrupt (s : State) (cl : ClusterId) : Bool := (s.trapQ cl).head + BitVec.ofNat 64 (s.trapQ cl).late != (s.trapQ cl).tail

end Sys2Proof.Machine
end

