-- ==== Sys2Proof/Machine/Registers.lean ====
section
/-!
DEFINITION. Sys2Proof/Machine/Registers.lean: the management block of a die (R4, R273 to R275, R303, R325, R327, R331, R355, R366, R379, R400, R404, R405,
R414) as the host and Patante's firmware read and write it, invalidations (R282), and the activation of address groups (R292 to R295).
-/
namespace Sys2Proof.Machine

/-- What a host event does once the part is ready: before, BAR0 serves no such register (R397). Assumption 51. -/
def State.whenReady (s : State) (f : State → State) : State := if s.pkg.ready then f s else s
/-- A field of a register word. -/
def field (lo w : Nat) (v : Word) : Nat := bits v.toNat lo w
def wordOf (n : Nat) : Word := BitVec.ofNat 64 n

/-! ### Launch queues (R331 to R333) -/

/-- ENQUEUE: a write of QTAIL (R332). -/
def State.enqueueAt (s : State) (d : DieId) (q : Fin 64) (tail : BitVec 32) : State := (s.mapQueue d q fun y => { y with tail := tail }).wakeHarts d
/-- ENQUEUE (R332). -/
def execEnqueue (d : DieId) (q : Fin 64) (tail : BitVec 32) (s : State) : Out := .next (s.whenReady fun s => s.enqueueAt d q tail)
/-- QUEUE_RESUME: 1 written to QSTAT.park (R331, R333). -/
def execQueueResume (d : DieId) (q : Fin 64) (s : State) : Out := .next (s.whenReady fun s => s.mapQueue d q fun y => { y with park := false })
/-- QCTL is written; lsize only while the queue is disabled (R331). -/
def LQueue.putCtl (y : LQueue) (v : Word) : LQueue :=
  { y with en := v.getLsbD 63, age := v.extractLsb' 32 16, lsize := if y.en then y.lsize else v.extractLsb' 8 5, prio := v.extractLsb' 0 3 }
/-- A queue register is written (R331); where park is cleared, reason and fpa stay as they are: assumption 93. -/
def State.putQueue (s : State) (d : DieId) (q : Fin 64) (r : Nat) (v : Word) : State :=
  match r with
  | 0 => s.mapQueue d q fun y => if y.en then y else { y with base := v.setWidth 52 }
  | 1 => s.mapQueue d q fun y => y.putCtl v
  | 2 => s.enqueueAt d q (v.setWidth 32)
  | 4 => if v.getLsbD 63 then s.mapQueue d q fun y => { y with park := false } else s
  | _ => s
def LQueue.read (y : LQueue) (r : Nat) : Nat :=
  match r with
  | 0 => y.base.toNat
  | 1 => y.en.toNat * 2 ^ 63 + y.age.toNat * 2 ^ 32 + y.lsize.toNat * 2 ^ 8 + y.prio.toNat
  | 2 => y.tail.toNat
  | 3 => y.head.toNat
  | 4 => y.park.toNat * 2 ^ 63 + y.reason.toNat * 2 ^ 60 + y.fpa.toNat
  | _ => 0

/-! ### Invalidation (R274, R282) -/

/-- INVCTL is written: all, G and asid always; a go starts an invalidation of what the registers then name, and is ignored while one runs (R274, R282). -/
def State.invalidate (s : State) (d : DieId) (go all glob : Bool) (asid : BitVec 14) : State :=
  s.mapDie d fun y =>
    let y := { y with invAll := all, invG := glob, invAsid := asid }
    if go && !y.invBusy then { y with invBusy := true, invRun := ⟨y.invva, y.invlen, all, glob, asid⟩, walks := y.walks.map fun w => { w with old := true } } else y
/-- INVALIDATION (R282). -/
def execInvalidation (d : DieId) (all glob : Bool) (asid : BitVec 14) (s : State) : Out := .next (s.whenReady fun s => s.invalidate d true all glob asid)
/-- The cores of a die. -/
def coresOn (d : DieId) : List CoreId := (List.finRange 512).filter fun (c : CoreId) => decide (c.die = d)
/-- A physical address lies in the page of a kept translation. -/
def State.inPage (s : State) (k : Kept) (pa : Nat) : Bool := decide (s.localPa k.pa ≤ pa) && decide (pa < s.localPa k.pa + k.size)
/-- Every walk of the range that started before the go has ended, and every access that used a covered translation: its load has returned, its store,
buffered and drained ones included, has been performed, those that a save image holds among them (R282, R370). -/
def State.invQuiet (s : State) (d : DieId) : Bool :=
  let y := s.die d
  let ks := y.tlb.filter y.invRun.covers
  let used (pa : Nat) : Bool := ks.any fun k => s.inPage k pa
  (y.walks.all fun w => !(w.old && y.invRun.meets w.asid false w.va 1)) &&
    (coresOn d).all fun c =>
      ((s.core c).accesses.all fun a => (isStore a.kind && !a.isOpen) || !used a.pa) &&
      ((s.core c).mitten.all fun m => !used m.pa) && ((s.core c).mittenDrain.all fun m => !used m.pa) && ((s.core c).sent.all fun m => !used m.pa) &&
      ((s.core c).walked.all fun w => !(w.kept.any y.invRun.covers)) &&
      y.saved.all fun g => g.core != c || (List.range (min 32768 (s.word (g.area + 0x310)))).all fun i => !used (bits (s.word (g.area + 0x100000 + 8 * i)) 3 49 * 8)
/-- A staged tile with a page in the range goes, as does one with a page of a kept mapping that the range meets and takes away whole (R150, R282). -/
def State.dropTiles (s : State) (d : DieId) (c : CoreId) : State :=
  let y := s.die d
  let gone (t : Staged) : Bool := t.pages.any fun p =>
    let asid := ((y.launches.find? fun l => l.id == t.launch).map (·.asid)).getD 0
    y.invRun.meets asid false (p * 65536) 65536 || y.tlb.any fun k => y.invRun.covers k && k.covers asid (p * 65536)
  s.mapCore c fun k => { k with staging := k.staging.map fun t => t.filter fun x => !gone x }
/-- INVALIDATION_COMPLETE (R282). -/
def execInvalidationComplete (d : DieId) (s : State) : Out :=
  .next (if !(s.die d).invBusy || !s.invQuiet d then s
    else ((coresOn d).foldl (fun t c => t.dropTiles d c) s).mapDie d fun y => { y with invBusy := false, tlb := y.tlb.filter fun k => !y.invRun.covers k })

/-! ### Address groups (R292 to R295) -/

/-- The digest over the words of a group (R294). -/
def groupDigest (ws : List Nat) : Nat := (ws.zipIdx.foldl (fun d (w, i) => mix (d ^^^ w) (i + 1)) (mix 0 0))
/-- A member's reserved fields are zero, and its barrier is aligned when enabled (R293, R294). -/
def memberOk (w : Vector Word 4) : Bool :=
  let v (i : Nat) := (w.toList.getD i 0).toNat
  bits (v 0) 51 13 == 0 && bits (v 0) 23 9 == 0 && bits (v 0) 0 14 == 0 && bits (v 1) 52 12 == 0 && bits (v 2) 21 42 == 0 && v 3 == 0 &&
    (!bit (v 2) 63 || bits (v 2) 0 21 % 16 == 0)
/-- A read of a range raises PA_UNMAPPED or MEM_POISON (R294). -/
def State.unreadable (s : State) (pa n : Nat) : Bool := !s.rangeAssigned pa n || s.poison.any fun u => overlaps u 8 (s.localPa pa) n
/-- The checks of an activation in their order: the status, or the active copy (R294). A member array that is no multiple of 32, and a member base with bit 51
set, break R292 and R293 and are no failure of R294: that the group is activated is the model's choice, assumption 101. -/
def State.readGroup (s : State) (d : DieId) (i : BitVec 10) : Except Nat GroupCopy :=
  let a := (s.die d).gtbase.toNat + 64 * i.toNat
  if (s.readFault a 64).isSome then .error 1
  else
    let w (j : Nat) := s.word (a + 8 * j)
    let isSealed := bit (w 0) 63
    let combine := bit (w 0) 62
    let p := bits (w 0) 32 12 + 1
    let mem := bits (w 1) 0 52
    let key := bits (w 2) 0 16
    if s.unreadable mem (32 * p) then .error 1
    else if combine && isSealed then .error 2
    else if bits (w 0) 44 18 ≠ 0 ∨ bits (w 1) 52 12 ≠ 0 ∨ bits (w 2) 16 48 ≠ 0 ∨ w 4 ≠ 0 ∨ w 5 ≠ 0 ∨ w 6 ≠ 0 ∨ w 7 ≠ 0 ∨ (s.readFault mem (32 * p)).isSome ∨
        (if isSealed then 4096 ≤ key ∨ (s.pkg.keys.lookup key).isNone else key ≠ 0) then .error 1
    else
      let ms : List (Vector Word 4) := (List.range p).map fun q => Vector.ofFn fun j => wordOf (s.word (mem + 32 * q + 8 * j.val))
      let names := ms.map fun m => ((memberOf m).pkg, (memberOf m).core)
      if !ms.all memberOk ∨ names.eraseDups.length ≠ p ∨ !(ms.any fun m => s.isOwn (memberOf m)) then .error 1
      else
        let dig := groupDigest ([w 0, w 1 / 2 ^ 44 * 2 ^ 44, w 2] ++ ms.flatMap fun m => m.toList.map BitVec.toNat)
        .ok ⟨i.toNat, isSealed, combine, BitVec.ofNat 32 (w 0), key, wordOf dig, ms⟩
/-- GRPCTL op 1: the group is read, checked and activated (R294); status 3 while an op runs (R275). -/
def State.activate (s : State) (d : DieId) (i : BitVec 10) : State :=
  if (s.die d).grpBusy then s.mapDie d fun y => { y with grpStatus := 3 }
  else
    match s.readGroup d i with
    | .error e => s.mapDie d fun y => { y with grpIndex := i, grpStatus := BitVec.ofNat 4 e }
    | .ok g => (s.otherWrite ((s.die d).gtbase.toNat + 64 * i.toNat + 24) (leBytes 8 g.digest.toNat)).mapDie d fun y =>
      { y with grpIndex := i, grpStatus := 0, groups := g :: y.groups.filter fun h => h.idx != i.toNat }
/-- ACTIVATE (R275, R294). -/
def execActivate (d : DieId) (i : BitVec 10) (s : State) : Out := .next (s.whenReady fun s => s.activate d i)
/-- A command is a transpose over a group. -/
def Command.names (q : Command) (i : Nat) : Bool := q.eng == .xpose && (xparam q.set).map1 && (xparam q.set).rbase == i
/-- The transposes of a die that name a group: those in copy queues and those stopped in images. -/
def State.groupCommands (s : State) (d : DieId) (i : Nat) : List (CoreId × Word32) :=
  ((coresOn d).flatMap fun c => ((s.core c).copyq.filter fun q => q.names i).map fun q => (c, q.tag)) ++
    (s.die d).saved.flatMap fun g => (((List.range (bits (s.word (g.area + 16)) 32 16)).map fun j => s.readEngine (g.area + 0x80000 + 0x400 * j) 0).filter fun q =>
      q.names i).map fun q => (g.core, q.tag)
/-- GRPCTL op 2 (R275, R295). -/
def State.deactivate (s : State) (d : DieId) (i : BitVec 10) : State :=
  let run : GroupRun := ⟨i, s.pkg.nextColl, s.groupCommands d i.toNat⟩
  s.mapDie d fun y => if y.grpBusy then { y with grpStatus := 3 } else { y with grpIndex := i, grpBusy := true, grpRun := some run }
/-- DEACTIVATE (R275, R295). -/
def execDeactivate (d : DieId) (i : BitVec 10) (s : State) : Out := .next (s.whenReady fun s => s.deactivate d i)
/-- Every operation that named the group and had committed before the op has completed or been abandoned (R295). -/
def State.groupQuiet (s : State) (d : DieId) (r : GroupRun) : Bool :=
  (s.pkg.colls.all fun o => !(decide (o.core.die = d) && o.group == r.index.toNat && decide (o.id < r.colls))) &&
    (s.groupCommands d r.index.toNat).all fun q => !r.cmds.contains q
/-- DEACTIVATE_COMPLETE (R295). -/
def execDeactivateComplete (d : DieId) (s : State) : Out :=
  match (s.die d).grpRun with
  | none => .next s
  | some r => .next (if !(s.die d).grpBusy || !s.groupQuiet d r then s
    else s.mapDie d fun y => { y with grpBusy := false, grpRun := none, grpStatus := 0, groups := y.groups.filter fun g => g.idx != r.index.toNat })

/-! ### Meters (R325) -/

/-- PEAK_RESET: a write of any value to FCUR (R325); a fused-off field's registers ignore writes (R406). -/
def State.peakReset (s : State) (d : DieId) (f : Fin 4) : State :=
  if s.fieldEnabled d.val f.val then s.mapDie d fun y => y.mapField f fun m => { m with peak := 0 } else s
/-- PEAK_RESET (R325). -/
def execPeakReset (d : DieId) (f : Fin 4) (s : State) : Out := .next (s.whenReady fun s => s.peakReset d f)
/-- A meter register is written (R325). -/
def State.putMeter (s : State) (d : DieId) (f : Fin 4) (r : Nat) (v : Word) : State :=
  if !s.fieldEnabled d.val f.val then s
  else
    match r with
    | 0 => s.peakReset d f
    | 1 => s.mapDie d fun y => y.mapField f fun m => { m with lim := v.setWidth 16 }
    | 3 => s.mapDie d fun y => y.mapField f fun m => { m with ceil := v.extractLsb' 4 3 }
    | _ => s
def FieldMeter.read (m : FieldMeter) (r : Nat) : Nat :=
  match r with
  | 0 => m.peak.toNat * 65536 + m.avg.toNat
  | 1 => m.lim.toNat
  | 2 => m.decl.toNat
  | 3 => m.thr.toNat * 2 ^ 32 + m.ceil.toNat * 16 + m.step.toNat
  | _ => 0

/-! ### The peer-window table and the fault-control registers (R303, R355, R366) -/

/-- A word of a peer-window entry is written; err is cleared by a 1 (R303). -/
def PeerEntry.put (e : PeerEntry) (w : Nat) (v : Word) : PeerEntry :=
  if w = 0 then { e with v := v.getLsbD 63, port := v.getLsbD 62, err := e.err && !v.getLsbD 61, size := v.setWidth 20 } else { e with bus := v.extractLsb' 12 52 }
def PeerEntry.read (e : PeerEntry) (w : Nat) : Nat :=
  if w = 0 then e.v.toNat * 2 ^ 63 + e.port.toNat * 2 ^ 62 + e.err.toNat * 2 ^ 61 + e.size.toNat else e.bus.toNat * 4096
/-- PCTL is written: area always, a request with bit 63 (R366). -/
def State.putPctl (s : State) (c : CoreId) (v : Word) : State :=
  if v.getLsbD 63 then s.request c (v.setWidth 52) (v.getLsbD 62) else if s.coreEnabled c then s.mapCore c fun k => { k with pctlArea := v.setWidth 52 } else s
/-- KREQ is written (R355). -/
def State.putKreq (s : State) (d : DieId) (v : Word) : State :=
  let x : CtxId := ⟨field 8 2 v, Nat.mod_lt _ (by decide)⟩
  if v.getLsbD 63 then
    if v.getLsbD 52 then s.kreqImage d (v.setWidth 8) x (v.getLsbD 10) (v.extractLsb' 16 36)
    else (s.kreqLive d (v.setWidth 8) x (v.getLsbD 10)).mapDie d fun y => { y with kreqArea := v.extractLsb' 16 36 }
  else s.mapDie d fun y => { y with kreqImg := v.getLsbD 52, kreqArea := v.extractLsb' 16 36, kreqGrp := v.getLsbD 10, kreqCtx := v.extractLsb' 8 2, kreqCore := v.setWidth 8 }
/-- A fault-control register is written (R355). -/
def State.putFault (s : State) (d : DieId) (off : Nat) (v : Word) : State :=
  match off with
  | 0x2000 => s.mapDie d fun y => { y with gauntLg := v.setWidth 5 }
  | 0x2008 => s.mapDie d fun y => { y with svclim := v.setWidth 32 }
  | 0x2010 => s.mapDie d fun y => { y with krbase := v.setWidth 52 }
  | 0x2018 => s.mapDie d fun y => { y with krHead := v.extractLsb' 16 16, krLsize := v.setWidth 4 }
  | 0x2020 => s.mapDie d fun y => { y with pfto := v.setWidth 16 }
  | 0x2030 => s.putKreq d v
  | _ => s
def Die.readFaultReg (y : Die) (off : Nat) : Nat :=
  match off with
  | 0x2000 => y.gauntLg.toNat
  | 0x2008 => y.svclim.toNat
  | 0x2010 => y.krbase.toNat
  | 0x2018 => y.krDrop.toNat * 2 ^ 48 + y.krTail.toNat * 2 ^ 32 + y.krHead.toNat * 2 ^ 16 + y.krLsize.toNat
  | 0x2020 => y.pfto.toNat
  | 0x2030 => y.kreqImg.toNat * 2 ^ 52 + y.kreqArea.toNat * 2 ^ 16 + y.kreqGrp.toNat * 2 ^ 10 + y.kreqCtx.toNat * 2 ^ 8 + y.kreqCore.toNat
  | _ => 0

/-! ### Table control (R273 to R275) -/

def State.putTable (s : State) (d : DieId) (off : Nat) (v : Word) : State :=
  match off with
  | 0x000 => s.mapDie d fun y => { y with asbase := wordOf (field 16 36 v * 2 ^ 16) }
  | 0x008 => s.mapDie d fun y => { y with gtbase := wordOf (field 6 46 v * 2 ^ 6) }
  | 0x010 => s.mapDie d fun y => { y with invva := v }
  | 0x018 => s.mapDie d fun y => { y with invlen := v }
  | 0x020 => s.invalidate d (v.getLsbD 62) (v.getLsbD 17) (v.getLsbD 16) (v.setWidth 14)
  | 0x028 =>
    match field 61 2 v with
    | 1 => s.activate d (v.setWidth 10)
    | 2 => s.deactivate d (v.setWidth 10)
    | _ => s.mapDie d fun y => { y with grpIndex := v.setWidth 10 }
  | _ => s
def State.readTable (s : State) (d : DieId) (off : Nat) : Nat :=
  let y := s.die d
  match off with
  | 0x000 => y.asbase.toNat
  | 0x008 => y.gtbase.toNat
  | 0x010 => y.invva.toNat
  | 0x018 => y.invlen.toNat
  | 0x020 => y.invBusy.toNat * 2 ^ 63 + y.invAll.toNat * 2 ^ 17 + y.invG.toNat * 2 ^ 16 + y.invAsid.toNat
  | 0x028 => y.grpBusy.toNat * 2 ^ 63 + y.grpStatus.toNat * 2 ^ 52 + y.grpIndex.toNat
  | 0x030 => y.uncombined.toNat * 2 ^ 32 + s.entriesUsed
  | _ => 0
/-- A word of GACTIVE (R273). -/
def Die.activeWord (y : Die) (j : Nat) : Nat := ((y.groups.filter fun g => g.idx / 64 == j).map fun g => 2 ^ (g.idx % 64)).sum

/-! ### Package registers (R379, R400, R404, R405, R414) -/

def Pkg.readReg (p : Pkg) (off : Nat) : Nat :=
  match off with
  | 0x0800 => p.ready.toNat * 2 ^ 63 + p.hpend.toNat * 2 ^ 62 + p.unit.toNat * 2 ^ 16 + p.code.toNat * 2 ^ 8 + p.step.toNat
  | 0x0808 => p.tier.toNat * 2 ^ 32 + p.stepping.toNat * 2 ^ 24 + p.tkind.toNat * 2 ^ 16 + p.hbm.toNat * 2 ^ 8 + p.fld.toNat
  | 0x0810 => p.opt.toNat
  | 0x0848 => p.w1.toNat * 2 ^ 20 + p.w0.toNat * 2 ^ 16 + p.g1.toNat * 2 ^ 12 + p.g0.toNat * 2 ^ 8 + p.m1.toNat * 2 + p.m0.toNat
  | 0x0C00 => p.mbBusy.toNat * 2 ^ 62 + p.mbStatus.toNat * 2 ^ 48 + p.mbCmd.toNat
  | 0x0C08 => p.mbArg[0].toNat
  | 0x0C10 => p.mbArg[1].toNat
  | 0x0C18 => p.mbArg[2].toNat
  | 0x0C20 => p.mbArg[3].toNat
  | 0x0C28 => p.mbBuf.toNat
  | 0x3000 => p.fabid.toNat
  | 0x3008 => p.ports.toNat
  | 0x3010 => p.gpeer.toNat
  | 0x3018 => p.lost.toNat * 2 ^ 32 + p.sealfail.toNat
  | 0x3020 => p.mism.toNat
  | _ => 0
/-- Offsets that BAR0 serves before ready (R397). -/
def servedEarly (off : Nat) : Bool := (decide (0x0800 ≤ off) && decide (off < 0x0850)) || (decide (0x0C00 ≤ off) && decide (off < 0x0C30))

/-- A domain barrier counter as the management window shows it (R321), and the four counters of a guarded launch (R324). The spec gives them no offset there, so
that no register of `State.readReg` holds them: assumption 77. -/
def State.counterView (s : State) (d : DieId) (launch level idx : Nat) : BitVec 128 := BitVec.ofNat 128 ((s.die d).counter launch level idx).toNat
def Launch.guardView (l : Launch) : BitVec 128 := l.gFault ++ l.gOvfl ++ l.gFail ++ l.gPass
/-- A 64-bit register of a die's management block as it reads. Offsets without a register read as zero, and so do those of a core that is fused off (R10). -/
def State.readReg (s : State) (d : DieId) (off : Nat) : Word :=
  let y := s.die d
  let i := off / 8
  wordOf (
    if !s.pkg.ready ∧ !servedEarly off then 0
    else if off < 0x100 then s.readTable d off
    else if off < 0x180 then y.activeWord (i - 32)
    else if 0x820 ≤ off ∧ off < 0x840 then bits y.capcore.toNat (64 * (i - 0x104)) 64
    else if off < 0x1000 then s.pkg.readReg off
    else if off < 0x2000 then (s.pkg.pwt[(off - 0x1000) / 16 % 256]'(Nat.mod_lt _ (by decide))).read (i % 2)
    else if off < 0x2800 then y.readFaultReg off
    else if off < 0x3000 then (let k := s.core (coreOn d (i - 0x500)); if s.coreEnabled (coreOn d (i - 0x500)) then k.pctlState.toNat * 2 ^ 60 + k.pctlArea.toNat else 0)
    else if off < 0x4000 then s.pkg.readReg off
    else if off < 0x5000 then (y.queue ⟨(off - 0x4000) / 64 % 64, Nat.mod_lt _ (by decide)⟩).read (i % 8)
    else if off < 0x5100 then
      (let f : Fin 4 := ⟨(off - 0x5000) / 64 % 4, Nat.mod_lt _ (by decide)⟩
       if s.fieldEnabled d.val f.val then y.fields[f].read (i % 8) else 0)
    else if 0x8000 ≤ off ∧ off < 0x28000 ∧ off % 0x200 < 0x80 then
      (let c := coreOn d ((off - 0x8000) / 0x200)
       if s.coreEnabled c then ((s.core c).perf.toList.getD (i % 16) 0).toNat else 0)
    else 0)

/-- MBARG and MBBUF (R414). -/
def Pkg.putMail (p : Pkg) (off : Nat) (v : Word) : Pkg :=
  match off with
  | 0x0C08 => { p with mbArg := p.mbArg.set 0 v }
  | 0x0C10 => { p with mbArg := p.mbArg.set 1 v }
  | 0x0C18 => { p with mbArg := p.mbArg.set 2 v }
  | 0x0C20 => { p with mbArg := p.mbArg.set 3 v }
  | 0x0C28 => { p with mbBuf := v.setWidth 52 }
  | _ => p

/-- A write to a 64-bit register of a die's management block, but for MBCMD, whose commands stand in Sys2Proof/Machine/Mailbox.lean. Read-only fields and offsets
without a register ignore it (R4). -/
def State.putReg (s : State) (d : DieId) (off : Nat) (v : Word) : State :=
  let i := off / 8
  if 0xC00 ≤ off ∧ off < 0xC30 then s.mapPkg fun p => p.putMail off v
  else if !s.pkg.ready then s
  else if off < 0x100 then s.putTable d off v
  else if off < 0x1000 then s
  else if off < 0x2000 then s.mapPkg fun p => { p with pwt := p.pwt.set ((off - 0x1000) / 16 % 256) ((p.pwt[(off - 0x1000) / 16 % 256]'(Nat.mod_lt _ (by decide))).put (i % 2) v) (Nat.mod_lt _ (by decide)) }
  else if off < 0x2800 then s.putFault d off v
  else if off < 0x3000 then s.putPctl (coreOn d (i - 0x500)) v
  else if off < 0x4000 then s
  else if off < 0x5000 then s.putQueue d ⟨(off - 0x4000) / 64 % 64, Nat.mod_lt _ (by decide)⟩ (i % 8) v
  else if off < 0x5100 then s.putMeter d ⟨(off - 0x5000) / 64 % 4, Nat.mod_lt _ (by decide)⟩ (i % 8) v
  else s

end Sys2Proof.Machine
end

