-- ==== Sys2Proof/Machine/Mailbox.lean ====
section
/-!
DEFINITION. Sys2Proof/Machine/Mailbox.lean: the mailbox and its commands (R414): the visor, reports (R415), signed images (R408 to R411), their commit (R416),
helper routines (R412) and the key store (R413). The cryptographic algorithms stand outside the spec (assumption 10).
-/
namespace Sys2Proof.Machine

/-! ### Signed images (R408 to R411) -/

/-- `n` bytes from place `o` on. -/
def slice (b : List Byte) (o n : Nat) : List Byte := (b.drop o).take n
def sliceNat (b : List Byte) (o n : Nat) : Nat := leNat (slice b o n)
/-- Status codes (R404, R414). -/
def fwSig : Nat := 1
def fwRollback : Nat := 2
def mbInUse : Nat := 3
def mbFormat : Nat := 4
def mbNoRoom : Nat := 5
def mbNotStaged : Nat := 6

/-- A signed image in a buffer: the bytes signed, their two signatures, and what follows them (R409). -/
structure SignedImage where
  kind : Nat
  index : Nat
  version : Nat
  entry : Nat
  signer : Nat
  digest : Nat
  body : List Byte
  covered : List Byte
  sigEd : List Byte
  sigMl : List Byte
  keyBlock : List Byte
deriving DecidableEq, Repr
/-- The parts of an image (R409). -/
def splitImage (b : List Byte) : SignedImage :=
  let n := sliceNat b 8 4
  { kind := sliceNat b 4 1, index := sliceNat b 5 1, version := sliceNat b 6 2, entry := sliceNat b 12 4, signer := sliceNat b 16 1, digest := sliceNat b 32 48
    body := slice b 128 n, covered := slice b 0 (128 + n), sigEd := slice b (128 + n) 64, sigMl := slice b (192 + n) 3309, keyBlock := b.drop (3501 + n) }
/-- The header's own rules (R409, R411). -/
def headerOk (b : List Byte) : Bool :=
  let kind := sliceNat b 4 1
  sliceNat b 0 4 == 0x49565346 && decide (1 ≤ kind ∧ kind ≤ 4) && (if kind = 4 then decide (sliceNat b 5 1 < 64) else sliceNat b 5 1 == 0) &&
    decide (sliceNat b 16 1 ≤ 1) && sliceNat b 17 15 == 0 && sliceNat b 80 48 == 0 && (sliceNat b 16 1 == 1 || sliceNat b 32 48 == 0) &&
    decide (128 + sliceNat b 8 4 + 64 + 3309 + 1992 ≤ b.length)
/-- The head of a key block: type and length, reserved bits zero (R410). -/
def keyHead (b : List Byte) (type len : Nat) : Bool := sliceNat b 0 1 == type && sliceNat b 1 3 == 0 && sliceNat b 4 4 == len && decide (len ≤ b.length)
def shaNat (b : List Byte) : Nat := (Config.sha384 b).toNat
/-- The root keys of a type-1 block, when the fused digest vouches for them (R410). -/
def rootKeys (b : List Byte) : Option (List Byte × List Byte) :=
  if keyHead b 1 1992 && Config.sha384 (slice b 8 1984) == Config.fusedRootDigest then some (slice b 8 32, slice b 40 1952) else none
/-- KeysFor (R410). -/
def keysFor (i : SignedImage) : Option (List Byte × List Byte) :=
  let kb := i.keyBlock
  if i.signer = 0 then rootKeys kb
  else if i.signer = 1 then
    let cert := slice kb 8 2000
    match (if keyHead kb 2 7373 then rootKeys (slice kb 2008 1992) else none) with
    | none => none
    | some (ed, ml) =>
      if Config.ed25519Verify ed cert (slice kb 4000 64) && Config.mlDsa65Verify ml cert (slice kb 4064 3309) && bit (sliceNat cert 1984 8) i.kind &&
          decide (sliceNat cert 1992 2 ≤ i.version ∧ i.version ≤ sliceNat cert 1994 2) && shaNat (slice cert 0 1984) == i.digest then
        some (slice cert 0 32, slice cert 32 1952)
      else none
  else none
/-- An image is accepted, or rejected with a status (R411). `minVer` are the fused minima of the four kinds. -/
def acceptImage (minVer : Vector (BitVec 16) 4) (b : List Byte) : Except Nat SignedImage :=
  let i := splitImage b
  if !headerOk b then .error fwSig
  else
    match keysFor i with
    | none => .error fwSig
    | some (ed, ml) =>
      if !(Config.ed25519Verify ed i.covered i.sigEd && Config.mlDsa65Verify ml i.covered i.sigMl) then .error fwSig
      else if i.version < (minVer.toList.getD (i.kind - 1) 0).toNat then .error fwRollback
      else .ok i

/-! ### The mailbox (R414) -/

/-- The 64 KiB buffer: a multiple of 64 KiB in local HBM. Assumption 52. -/
def State.mailBuffer (s : State) : Option Nat :=
  let a := s.pkg.mbBuf.toNat
  if a % 65536 = 0 ∧ s.localHbm a ∧ s.localHbm (a + 65535) then some a else none
/-- A command ends: status, and vector 5 (R401, R414). -/
def State.mailDone (s : State) (status : Nat) : State := (s.mapPkg fun p => { p with mbBusy := false, mbStatus := BitVec.ofNat 8 status }).interrupt 0 5
/-- MBCMD.cmd takes what is written, whether or not a command runs (R4, R414). -/
def State.putCmd (s : State) (cmd : BitVec 8) : State := s.mapPkg fun p => { p with mbCmd := cmd }
/-- A command runs unless one does already, when its go is ignored (R414): its effect and its status. -/
def State.mailCommand (s : State) (cmd : BitVec 8) (f : State → State × Nat) : State :=
  if s.pkg.mbBusy then s.putCmd cmd
  else let (t, e) := f (s.putCmd cmd); t.mailDone e
/-- A command that uses the buffer; without one its status is FORMAT. -/
def withBuffer (s : State) (f : Nat → State × Nat) : State × Nat := match s.mailBuffer with | some a => f a | none => (s, mbFormat)

/-- The visor's words, in the order of R328. -/
def Pkg.visorBytes (p : Pkg) : List Byte := p.visor.toList.flatMap fun (w : Word) => leBytes 8 w.toNat
/-- VISOR (R329, R414). -/
def State.mailVisor (s : State) : State := s.mailCommand 1 fun s => withBuffer s fun a => (s.otherWrite a s.pkg.visorBytes, 0)

/-- SHA-384 of a die's routine store: 128 KiB, the routines one after another (R415). -/
def Die.storeBytes (d : Die) : List Byte := ((d.routines.flatMap Routine.body) ++ List.replicate 131072 0).take 131072
def versionWord (v : List (BitVec 16)) : Nat := (v.zipIdx.map fun (p : BitVec 16 × Nat) => p.1.toNat * 2 ^ (16 * p.2)).sum
/-- The 512 bytes of a report (R415). -/
def State.reportBody (s : State) (nonce : Nat) : List Byte :=
  let p := s.pkg
  leBytes 4 0x49565250 ++ leBytes 4 512 ++ leBytes 8 p.fabid.toNat ++ leBytes 8 (p.readReg 0x0808) ++ leBytes 8 (p.readReg 0x0810) ++
    leBytes 32 s.die0.capcore.toNat ++ leBytes 32 s.die1.capcore.toNat ++ leBytes 8 (versionWord p.fw.minVer.toList) ++
    leBytes 8 (versionWord (p.fw.runVer.toList.take 3)) ++ leBytes 48 p.fw.digests[0].toNat ++ leBytes 48 p.fw.digests[1].toNat ++ leBytes 48 p.fw.digests[2].toNat ++
    leBytes 48 (shaNat s.die0.storeBytes) ++ leBytes 48 (shaNat s.die1.storeBytes) ++ leBytes 32 nonce ++ leBytes 8 p.hpend.toNat ++ List.replicate 120 0
/-- A report with its two signatures, by the running management image's keys (R415, R416). -/
def State.report (s : State) (nonce : Nat) : List Byte :=
  let b := s.reportBody nonce
  let m := s.pkg.fw.digests[0]
  b ++ leBytes 64 (Config.attestEd25519 m b).toNat ++ leBytes 3309 (Config.attestMlDsa65 m b).toNat
/-- MBARG0 to 3 as one number. -/
def Pkg.nonceArg (p : Pkg) : Nat := p.mbArg[0].toNat + p.mbArg[1].toNat * 2 ^ 64 + p.mbArg[2].toNat * 2 ^ 128 + p.mbArg[3].toNat * 2 ^ 192
/-- ATTEST (R415). -/
def State.mailAttest (s : State) : State := s.mailCommand 2 fun s => withBuffer s fun a => (s.otherWrite a (s.report s.pkg.nonceArg), 0)

/-- The image in the buffer, of one of the kinds that a command takes. -/
def State.bufferImage (s : State) (a : Nat) (kinds : List Nat) : Except Nat SignedImage :=
  match acceptImage s.pkg.fw.minVer (Memory.bytes s.mem a 65536) with
  | .error e => .error e
  | .ok i => if kinds.contains i.kind then .ok i else .error fwSig
/-- STAGE (R411, R414). -/
def State.mailStage (s : State) : State :=
  s.mailCommand 3 fun s => withBuffer s fun a =>
    match s.bufferImage a [1, 2, 3] with
    | .error e => (s, e)
    | .ok i => (s.mapPkg fun p => { p with hpend := true, fw := { p.fw with staged := some i.covered } }, 0)

/-- An image, header and body, runs: its version and its measurement (R415). -/
def Firmware.run (f : Firmware) (b : List Byte) : Firmware :=
  let k := sliceNat b 4 1 - 1
  { f with runVer := f.runVer.setIfInBounds k (BitVec.ofNat 16 (sliceNat b 6 2)), digests := f.digests.setIfInBounds k (Config.sha384 b) }
/-- The staged image takes over (R416), and hpend falls. -/
def State.takeOver (s : State) (b : List Byte) : State :=
  s.mapPkg fun p => { p with hpend := false, fw := ({ p.fw with staged := none, waitHandler := false } : Firmware).run b }
/-- COMMIT (R416): a cuff-core handler waits for its commit point, the mailbox busy meanwhile. -/
def State.mailCommit (s : State) : State :=
  if s.pkg.mbBusy then s.putCmd 4
  else
    let s := s.putCmd 4
    match s.pkg.fw.staged with
    | none => s.mailDone mbNotStaged
    | some b =>
      if sliceNat b 4 1 = 3 then s.mapPkg fun p => { p with mbBusy := true, fw := { p.fw with waitHandler := true } }
      else (s.takeOver b).mailDone 0
/-- Every trap queue is empty but for the records that wait for the new handler, and every cuff core is idle: it serves no record of a core (R416). Assumption
90. -/
def State.trapsEmpty (s : State) : Bool :=
  (s.traps.all fun q => q.records.length == q.late) && (List.finRange 512).all fun c => (s.served c).isNone
/-- HANDLER_COMMIT_POINT: the new handler finds the records that have waited for it (R416). -/
def State.handlerCommit (s : State) : State :=
  match s.pkg.fw.staged with
  | none => s
  | some b =>
    let t : State := { s with traps := s.traps.map fun (q : TrapQueue) => { q with late := 0 } }
    if s.pkg.fw.waitHandler && s.trapsEmpty then (t.takeOver b).mailDone 0 else s

/-- The dies that MBARG0 names (R414). -/
def Pkg.namedDies (p : Pkg) : List DieId := ([0, 1] : List DieId).filter fun d => p.mbArg[0].getLsbD d.val
/-- A `cpyh` that names the routine is in a copy queue of an enabled core of the die (R412). -/
def State.routineInUse (s : State) (d : DieId) (i : Nat) : Bool :=
  (coresOn d).any fun c => s.coreEnabled c && (s.core c).copyq.any fun q => q.help && (templateOf q.set).routine == i
/-- ROUTINE (R412): the routine takes its index on every named die, or on none. -/
def State.mailRoutine (s : State) : State :=
  s.mailCommand 5 fun s => withBuffer s fun a =>
    match s.bufferImage a [4] with
    | .error e => (s, e)
    | .ok i =>
      let ds := s.pkg.namedDies
      let others (d : DieId) : List Routine := (s.die d).routines.filter fun r => r.index != i.index
      if 32768 < i.body.length then (s, mbFormat)
      else if ds.any fun d => s.routineInUse d i.index then (s, mbInUse)
      else if ds.any fun d => decide (131072 < ((others d).map fun r => r.body.length).sum + i.body.length) then (s, mbNoRoom)
      else (ds.foldl (fun t d => t.mapDie d fun y => { y with routines := others d ++ [⟨i.index, i.entry, i.body⟩] }) s, 0)

/-- The bytes of a wrapped key: an ML-KEM-768 ciphertext, then 256 bits under AES key wrap (R413; assumption 10). -/
def wrappedBytes : Nat := 1128
/-- KEYLOAD (R413). -/
def State.mailKeyload (s : State) : State :=
  s.mailCommand 6 fun s => withBuffer s fun a =>
    let slot := s.pkg.mbArg[0].toNat
    let w := Memory.bytes s.mem a wrappedBytes
    if 4096 ≤ slot ∨ !Config.keyUnwraps w then (s, mbFormat)
    else (s.mapPkg fun p => { p with keys := (slot, Config.keyUnwrapped w) :: p.keys.filter fun k => k.1 != slot }, 0)
/-- An active group names the slot (R413). -/
def State.slotNamed (s : State) (slot : Nat) : Bool := ([0, 1] : List DieId).any fun d => (s.die d).groups.any fun g => g.isSealed && g.key == slot
/-- KEYCLEAR (R413). -/
def State.mailKeyclear (s : State) : State :=
  s.mailCommand 7 fun s =>
    let slot := s.pkg.mbArg[0].toNat
    if 4096 ≤ slot then (s, mbFormat)
    else if s.slotNamed slot then (s, mbInUse)
    else (s.mapPkg fun p => { p with keys := p.keys.filter fun k => k.1 != slot }, 0)
/-- KEYEXCH (R413). -/
def State.mailKeyexch (s : State) : State := s.mailCommand 8 fun s => withBuffer s fun a => (s.otherWrite a (leBytes 1184 Config.mlKemPublic.toNat), 0)
/-- A command code that is not assigned (R414). -/
def State.mailOther (s : State) (cmd : BitVec 8) : State :=
  if 1 ≤ cmd.toNat ∧ cmd.toNat ≤ 9 then s else s.mailCommand cmd fun s => (s, mbFormat)

/-- VISOR (R414). -/
def execVisor (s : State) : Out := .next s.mailVisor
/-- ATTEST (R415). -/
def execAttest (s : State) : Out := .next s.mailAttest
/-- STAGE (R414). -/
def execStage (s : State) : Out := .next s.mailStage
/-- COMMIT (R416). -/
def execCommit (s : State) : Out := .next s.mailCommit
/-- HANDLER_COMMIT_POINT (R416). -/
def execHandlerCommitPoint (s : State) : Out := .next s.handlerCommit
/-- ROUTINE (R412). -/
def execRoutine (s : State) : Out := .next s.mailRoutine
/-- KEYLOAD (R413). -/
def execKeyload (s : State) : Out := .next s.mailKeyload
/-- KEYCLEAR (R413). -/
def execKeyclear (s : State) : Out := .next s.mailKeyclear
/-- KEYEXCH (R413). -/
def execKeyexch (s : State) : Out := .next s.mailKeyexch
/-- MAILBOX_OTHER (R414). -/
def execMailboxOther (cmd : BitVec 8) (s : State) : Out := .next (s.mailOther cmd)
/-- SPDM_MEASUREMENT: a report over an endpoint's Data Object Exchange, whatever the mailbox runs (R415). -/
def execSpdmMeasurement (nonce : BitVec 256) (s : State) : Out := .next { s with out := s.out ++ [.report (s.report nonce.toNat)] }

end Sys2Proof.Machine
end

