-- ==== Sys2Proof/Machine/Power.lean ====
section
/-!
DEFINITION. Sys2Proof/Machine/Power.lean: bring-up (R402 to R405), resets and power (R329, R401), the links (R378, R379, R400), current windows (R326), the
visor's samples (R328), soft errors (R195, R407), inbound traffic (R397, R398), and register writes (R4).
-/
namespace Sys2Proof.Machine

/-! ### Resets and bring-up -/

/-- A die after a reset: its fuses stay (R405). -/
def Die.afterReset (d : Die) : Die := { Die.reset with capcore := d.capcore }
/-- The package after a reset: fuses, straps, the running firmware, the visor and the counter of sealed packets stay, so that no nonce repeats under a key that
is loaded again (R383, assumption 102); the registers take their reset values (R379, R404, R405, R414). -/
def Pkg.afterReset (p : Pkg) (step : BitVec 4) : Pkg :=
  { Pkg.reset with
    step := step, m0 := p.m0, m1 := p.m1, tier := p.tier, stepping := p.stepping, tkind := p.tkind, hbm := p.hbm, fld := p.fld, opt := p.opt
    fw := { p.fw with staged := none, waitHandler := false }, visor := p.visor, visorNv := p.visorNv, nonce := p.nonce }
/-- The machine after a package reset; memory is written at bring-up step 6. -/
def State.packageReset (s : State) (step : BitVec 4) : State :=
  { State.reset with die0 := s.die0.afterReset, die1 := s.die1.afterReset, pkg := s.pkg.afterReset step, mem := s.mem, tick := s.tick, agenda := s.agenda, out := s.out }
/-- RESET_PIN: bring-up runs from its first step (R401, R404; assumption 14). -/
def execResetPin (s : State) : Out := .next (s.packageReset 1)
/-- The mailbox command RESET (R414). -/
def State.mailReset (s : State) : State := if s.pkg.mbBusy then s.putCmd 9 else s.packageReset 2
/-- RESET: bring-up restarts at step 2 (R414). -/
def execReset (s : State) : Out := .next s.mailReset

/-- Codes of BOOTSTAT that the hardware of a step can give (R402); the codes of an image, and that of a tier which is missing, come from the run itself. -/
def stepCodes : Nat → List Nat
  | 3 => [4]
  | 4 => [5]
  | 5 => [6, 7]
  | 6 => [8]
  | _ => []
/-- tkind as the straps give it (R405). -/
def bootKind (b : BootRun) : Nat := if b.m0 then 2 else if b.m1 then 3 else if b.lpddr then 1 else 0
/-- The unit that a step names is one that it brings up (R402, R405). -/
def State.unitOk (s : State) (b : BootRun) (step unit : Nat) : Bool :=
  match step with
  | 3 => decide (unit < 8) && s.pkg.fld.getLsbD unit
  | 4 => (decide (unit < 8) && s.pkg.hbm.getLsbD unit) || (unit == 8 && bootKind b != 0)
  | _ => true
/-- The installed second tier, which the capability registers show (R194, R405); none without a tier's strap (assumption 14). -/
def bootTier (b : BootRun) : BitVec 32 := if bootKind b = 0 then 0 else BitVec.ofNat 32 b.tier.val
/-- A strap combination that R396 allows. -/
def strapsOk (b : BootRun) : Bool := !(b.m0 && b.m1) && !((b.m0 || b.m1) && b.lpddr)
/-- The status of an image that bring-up loads, when it is not accepted (R402, R408, R411). Assumption 89. -/
def State.bootReject (s : State) (kind : Nat) : Option Nat :=
  match acceptImage s.pkg.fw.minVer (Config.bootImage kind) with
  | .error e => some e
  | .ok i => if i.kind = kind then none else some fwSig
/-- The failure of the earliest step; of two in one step the first. -/
def firstFailure (l : List (Nat × Nat × Nat)) : Option (Nat × Nat × Nat) :=
  l.foldl (fun m f => match m with | some n => if f.1 < n.1 then some f else m | none => some f) none
/-- Where the run fails: the step, its code, its unit (R402): an image that is not accepted, straps that R396 does not allow, a strapped tier that is missing
(R405), or what the run names. A failure that no step can give, or before the step where bring-up starts, is none. -/
def State.bootFails (s : State) (b : BootRun) : Option (Nat × Nat × Nat) :=
  let named := match b.fail with
    | some (k, c, u) => if s.pkg.step.toNat ≤ k.val ∧ (stepCodes k.val).contains c.toNat ∧ s.unitOk b k.val u.toNat then [(k.val, c.toNat, u.toNat)] else []
    | none => []
  let image (step kind : Nat) : List (Nat × Nat × Nat) := if s.pkg.step.toNat ≤ step then (s.bootReject kind).toList.map fun e => (step, e, 0) else []
  firstFailure (named ++ image 1 1 ++ (if strapsOk b then [] else [(2, 3, 0)]) ++ (if bootKind b ≠ 0 ∧ b.tier = 0 then [(4, 5, 8)] else []) ++ image 6 2 ++ image 6 3)
/-- The firmware that runs once the steps before `step` are over (R402, R415). -/
def State.bootFirmware (s : State) (step : Nat) : Firmware :=
  [(1, 1), (6, 2), (6, 3)].foldl (fun f (k, kind) => if s.pkg.step.toNat ≤ k ∧ k < step then f.run (splitImage (Config.bootImage kind)).covered else f)
    s.pkg.fw
/-- What step 6 leaves in memory: zero everywhere, but a CXL device's own bytes (R182, R402). -/
def initMemory (tkind : Nat) (m : List Host.Cell) : List Host.Cell := if tkind = 2 ∨ tkind = 3 then m.filter fun c => decide (tierBase ≤ c.1) && decide (c.1 < 2 ^ 43) else []
/-- The part is ready (R402): every memory holds its content at ready, the fabric registers are set, and what the mailbox has been given before, which it serves
from the start, stays (R397, R414). -/
def State.bootReady (s : State) (b : BootRun) : State :=
  let t := s.packageReset 7
  let peer (lo : Nat) : Nat := bits b.peers.toNat lo 32
  { t with
    mem := initMemory (bootKind b) s.mem
    pkg := { t.pkg with
      ready := true, m0 := b.m0, m1 := b.m1, tkind := BitVec.ofNat 4 (bootKind b), tier := bootTier b, fabid := b.pkg, ports := b.portsUp &&& t.pkg.opt
      gpeer := wordOf (peer 32 * 2 ^ 32 + peer 0), fw := s.bootFirmware 7
      w0 := s.pkg.w0, w1 := s.pkg.w1, g0 := s.pkg.g0, g1 := s.pkg.g1, mbBusy := s.pkg.mbBusy, mbStatus := s.pkg.mbStatus, mbCmd := s.pkg.mbCmd
      mbArg := s.pkg.mbArg, mbBuf := s.pkg.mbBuf, keys := s.pkg.keys, hpend := s.pkg.hpend } }
/-- The run of bring-up from the step in progress (R402); step 2 reads the straps (R396, R400). -/
def State.bringUp (s : State) (b : BootRun) : State :=
  match s.bootFails b with
  | none => s.bootReady b
  | some (k, c, u) => s.mapPkg fun p =>
    let p := { p with fw := s.bootFirmware k, step := BitVec.ofNat 4 k, code := BitVec.ofNat 8 c, unit := BitVec.ofNat 16 u }
    if 2 ≤ k then { p with m0 := b.m0, m1 := b.m1, tkind := BitVec.ofNat 4 (bootKind b), tier := bootTier b } else p
/-- POWER_GOOD: bring-up runs to ready, or stops where it fails; it runs again after each package reset (R402; assumption 14). -/
def execPowerGood (b : BootRun) (s : State) : Out := .next (if s.pkg.ready || s.pkg.code != 0 then s else s.bringUp b)

/-- Power is gone: what is volatile is lost; the next power-on is one more power cycle (R328, R329). -/
def State.powerOff (s : State) : State :=
  let t := s.packageReset 1
  { t with
    mem := initMemory s.pkg.tkind.toNat s.mem
    pkg := { t.pkg with visor := s.pkg.visorNv, tkind := 0, m0 := false, m1 := false } }
/-- The volatile copy is written to the non-volatile store (R329). -/
def State.flushVisor (s : State) : State := s.mapPkg fun p => { p with visorNv := p.visor }
/-- VISOR_FLUSH (R329). -/
def execVisorFlush (s : State) : Out := .next s.flushVisor
/-- POWER_DOWN: orderly (R329). -/
def execPowerDown (s : State) : Out := .next (s.flushVisor.powerOff.visorAdd (visorPower 1) 1)
/-- POWER_LOSS: the events since the last flush are lost (R329). -/
def execPowerLoss (s : State) : Out := .next (s.powerOff.visorAdd (visorPower 1) 1)

/-! ### Links (R378, R379, R400, R401) -/

/-- LINK_RETRAIN: counted by the visor (R328, R378). -/
def execLinkRetrain (l : Link) (s : State) : Out :=
  .next (s.visorAdd (visorRetrain (match l with | .optical p => p.val | .bridge => 64 | .host p => 65 + p.val)) 1)
/-- OPTICAL_LINK_CHANGE (R379): a port that is fused off carries nothing (R406). -/
def execOpticalLinkChange (p : Fin 64) (up : Bool) (s : State) : Out :=
  .next (s.mapPkg fun k => { k with ports := if up && k.opt.getLsbD p.val then k.ports ||| BitVec.ofNat 64 (2 ^ p.val) else k.ports &&& ~~~BitVec.ofNat 64 (2 ^ p.val) })
/-- The width and the rate of a host port. -/
def Pkg.setLink (k : Pkg) (p : Fin 2) (w g : Nat) : Pkg :=
  if p = 0 then { k with w0 := BitVec.ofNat 4 w, g0 := BitVec.ofNat 4 g } else { k with w1 := BitVec.ofNat 4 w, g1 := BitVec.ofNat 4 g }
/-- HOST_LINK_CHANGE (R400). -/
def execHostLinkChange (p : Fin 2) (width rate : Fin 4) (s : State) : Out := .next (s.mapPkg fun k => k.setLink p width.val rate.val)
/-- The personality of a port: a CXL memory host, or an endpoint (R400). -/
def Pkg.isHost (k : Pkg) (p : Fin 2) : Bool := if p = 0 then k.m0 else k.m1
/-- HOT_RESET of an endpoint port: its link alone (R401). -/
def execHotReset (p : Fin 2) (s : State) : Out := .next (if s.pkg.isHost p then s else s.mapPkg fun k => k.setLink p 0 0)

/-! ### Meters and the visor (R326, R328) -/

/-- The end of a window at a field (R326): avg, peak, the counts of windows over lim and at or below 7/8 of it. -/
def FieldMeter.window (m : FieldMeter) (avg : BitVec 16) : FieldMeter :=
  let lim := max 0x100 m.lim.toNat
  { m with
    avg := avg
    peak := if m.peak.toNat < avg.toNat then avg else m.peak
    above := if lim < avg.toNat then m.above + 1 else 0
    below := if 8 * avg.toNat ≤ 7 * lim then m.below + 1 else 0 }
/-- The step after a window boundary (R326); ceil above 4 acts as 4, and each step-down increments thr, one for a lowered ceil too, and
a ceil lowered by several steps takes one at each boundary: the model's choices, assumption 78. -/
def FieldMeter.clockStep (m : FieldMeter) : FieldMeter :=
  let ceil := min 4 m.ceil.toNat
  if 2 ≤ m.above ∧ m.step.toNat < 4 then { m with step := m.step + 1, thr := m.thr + 1 }
  else if m.step.toNat < ceil then { m with step := m.step + 1, thr := m.thr + 1 }
  else if 8 ≤ m.below ∧ ceil < m.step.toNat then { m with step := m.step - 1 }
  else m
/-- CURRENT_WINDOW (R326): a field over its limit at 0.9 GHz counts a droop event; no rule gives such an event a depth, and it enters no bucket of depths (R328):
assumption 92. -/
def execCurrentWindow (d : DieId) (f : Fin 4) (avg : BitVec 16) (s : State) : Out :=
  .next (if !s.pkg.ready || !s.fieldEnabled d.val f.val then s
    else
      let m := (s.die d).fields[f]
      let s := if max 0x100 m.lim.toNat < avg.toNat ∧ m.step = 4 then s.visorAdd (visorDroop d f.val) 1 else s
      s.mapDie d fun y => y.mapField f fun z => (z.window avg).clockStep)
/-- SUPPLY_DROOP: a dip of `mv` below nominal (R328). R328 gives 16 buckets of 5 mV and no place for a dip of 80 mV or more: that it enters the last bucket is
the model's choice, assumption 92. -/
def execSupplyDroop (d : DieId) (f : Fin 4) (mv : Nat) (s : State) : Out :=
  .next (if s.fieldEnabled d.val f.val then (s.visorAdd (visorDroop d f.val) 1).visorAdd (visorDepth d f.val (min 15 (mv / 5))) 1 else s)
/-- VISOR_SAMPLE: the temperatures in °C of the fields and of the HBM stacks, and a second of power-on time (R328). -/
def execVisorSample (ft hs : List Nat) (s : State) : Out :=
  let temp (t : Nat) : Nat := min 31 (t / 4)
  let s := ((ft.take 8).zipIdx).foldl (fun t (v, i) => if t.pkg.fld.getLsbD i then t.visorAdd (visorTemp i (temp v)) 1 else t) s
  let s := ((hs.take 8).zipIdx).foldl (fun t (v, i) => if t.pkg.hbm.getLsbD i then t.visorAdd (visorTemp (8 + i) (temp v)) 1 else t) s
  .next (s.visorAdd (visorPower 0) 1)

/-! ### Soft errors (R195, R407) -/

/-- The memory of the visor's record that an address lies in: scratchpads 0, cluster SRAMs 1, HBM stack j 6 + j, the second tier 14 (R328). -/
def State.errorUnit (s : State) (pa : Nat) : Nat :=
  match regionClass pa with
  | some .hbm => 6 + (((List.range 4).filter fun i => s.pkg.hbm.getLsbD ((if bit pa 38 then 4 else 0) + i)).getD (pa % 2 ^ 38 / 2 ^ 36) 0) + (if bit pa 38 then 4 else 0)
  | some .tier => 14
  | _ => if pa < sramBase then 0 else 1
/-- The 8-byte units of a range become poison markers (R195). Assumption 53. -/
def State.markPoison (s : State) (pa n : Nat) : State :=
  { s with poison := s.poison ++ (((List.range ((pa % 8 + n + 7) / 8)).map fun i => pa / 8 * 8 + 8 * i).filter fun u => !s.poison.contains u) }
/-- A word of instruction memory goes bad, until it is written again: the images that overlap it become non-resident, and a context that fetches it is killed
(R337, R407). -/
def Core.dropImages (k : Core) (w : Nat) : Core :=
  { k with
    resident := k.resident.filter fun r => decide (4 * w < r.ioff) || decide (r.ioff + r.cbytes ≤ 4 * w)
    imemBad := w :: k.imemBad }
/-- An entry of the mitten buffer goes bad, which its commit will find (R407). -/
def Core.spoil (k : Core) (i : Nat) : Core :=
  { k with mitten := k.mitten.zipIdx.map fun (m, j) => if j = i % k.mitten.length then { m with bad := true } else m }
/-- Common memory holds the line of an address (R191). -/
def State.inCommon (s : State) (pa : Nat) : Bool := s.isLined pa && (s.die (s.homeDie pa)).lines.any fun t => t.held && t.line == lineOf (s.localPa pa)
/-- An error that the check bits cannot correct (R195, R407). -/
def State.uncorrected (s : State) (at_ : ScrubAt) : State :=
  let poisonCode := BitVec.ofNat 8 Code.memPoison
  match at_ with
  | .mem pa =>
    let a := pa.toNat
    let s := (s.visorAdd (visorUncorrected (s.errorUnit a)) 1).interrupt (s.homeDie a) 4
    if s.isLined a then s.markPoison (a / 128 * 128) 128 else s.markPoison (a / 8 * 8) 8
  | .common pa =>
    let a := pa.toNat
    if s.inCommon a then ((s.visorAdd (visorUncorrected 2) 1).interrupt (s.homeDie a) 4).markPoison (a / 128 * 128) 128 else s
  | .tag d b =>
    let mine := (s.die d).lines.filter fun t => t.line / 4 == b && t.dirty
    let s := (s.visorAdd (visorUncorrected 3) 1).interrupt d 4
    (mine.foldl (fun t l => t.markPoison (l.line * 128) 128) s).mapDie d fun y => y.evict (b * 512)
  | .imem c w =>
    (s.visorAdd (visorUncorrected 4) 1).mapCore c fun k => k.dropImages w.toNat
  | .mitten c =>
    (s.visorAdd (visorUncorrected 5) 1).mapCore c fun k => k.spoil (Config.freeBits 64 s.tick 897000).toNat
  | .reg c x => s.killTask c x poisonCode
  | .acc c a => ((ctxIds.filter fun x => (s.ctx c x).accMask.getLsbD a.val)).foldl (fun t x => t.killTask c x poisonCode) s
/-- The visor's unit of a corrected error; registers have none (R328). -/
def State.correctedUnit (s : State) : ScrubAt → Option Nat
  | .mem pa => some (s.errorUnit pa.toNat)
  | .common pa => if s.inCommon pa.toNat then some 2 else none
  | .tag _ _ => some 3
  | .imem _ _ => some 4
  | .mitten _ => some 5
  | .reg _ _ => none
  | .acc _ _ => none
/-- The place exists: a memory address that is assigned and not a peer's, or a memory of an enabled core (R10). -/
def State.scrubbed (s : State) : ScrubAt → Bool
  | .mem pa => s.assigned pa.toNat && s.localPa pa.toNat == pa.toNat && (match regionClass pa.toNat with | some .peer | some .remote => false | _ => true)
  | .common pa => s.assigned pa.toNat && s.localPa pa.toNat == pa.toNat
  | .tag _ _ => true
  | .imem c _ => s.coreEnabled c
  | .mitten c => s.coreEnabled c
  | .reg c _ => s.coreEnabled c
  | .acc c _ => s.coreEnabled c
/-- PATROL_SCRUB: an error found by the scrub or at use; a corrected one changes no value (R407). -/
def execPatrolScrub (at_ : ScrubAt) (bad : Bool) (s : State) : Out :=
  .next (if !s.scrubbed at_ then s
    else if bad then s.uncorrected at_
    else match s.correctedUnit at_ with
      | some u => s.visorAdd (visorCorrected u) 1
      | none => s)

/-! ### Inbound traffic (R397, R398) -/

/-- BAR2 maps the range: assigned, local, no peer window, the part ready, the port an endpoint (R397). -/
def State.bar2 (s : State) (p : Fin 2) (off n : Nat) : Bool :=
  s.pkg.ready && !s.pkg.isHost p && decide (0 < n) && decide (off + n ≤ 2 ^ 43) &&
    [off, off + n - 1].all fun a => s.assigned a && (match regionClass a with | some .peer | some .remote => false | _ => true)
/-- The core whose scratchpad an address lies in may go on (R307). -/
def State.wakeSpad (s : State) (pa : Nat) : State :=
  if h : 0x010000000000 ≤ pa ∧ (pa - 0x010000000000) / 0x200000 < 512 then s.wake ⟨(pa - 0x010000000000) / 0x200000, h.2⟩ else s
/-- INBOUND_WRITE: a posted write through BAR2 (R398). -/
def execInboundWrite (p : Fin 2) (off : Nat) (bytes : List Byte) (poison : Bool) (s : State) : Out :=
  .next (if bytes = [] then s
    else if !s.bar2 p off bytes.length then { s with out := s.out ++ [.unsupported] }
    else
      let s := (s.writeBy true true off bytes).wakeSpad off
      if poison then s.markPoison off bytes.length else s)
/-- INBOUND_READ: a read through BAR2, or, from 2^43 on, of one register of BAR0 (R397, R398; assumption 8). Poisoned bytes are free. -/
def execInboundRead (p : Fin 2) (off len : Nat) (s : State) : Out :=
  .next { s with out := s.out ++ [
    if 2 ^ 43 ≤ off then .completion (leBytes 8 (s.readReg (if off - 2 ^ 43 < 0x800000 then 0 else 1) ((off - 2 ^ 43) % 0x800000)).toNat)
    else if !s.bar2 p off len then .unsupported
    else .completion ((leBytes len (s.memRead off len)).zipIdx.map fun (x, i) => if s.poison.contains ((off + i) / 8 * 8) then Config.freeBits 8 s.tick (890000 + i) else x)] }
/-- The new value of an AtomicOp (R398): `y` is the compare value. -/
def hostAtomic (op : HostAtomic) (n m x y : Nat) : Nat :=
  match op with
  | .fetchAdd => (m + x) % 2 ^ (8 * n)
  | .swap => x
  | .cas => if m = y then x else m
/-- INBOUND_ATOMICOP (R193, R398). -/
def execInboundAtomicop (p : Fin 2) (op : HostAtomic) (wide : Bool) (off : Nat) (x y : Word) (s : State) : Out :=
  let n := if wide then 8 else 4
  .next (if !s.bar2 p off n ∨ off % n ≠ 0 ∨ !s.isLined off then { s with out := s.out ++ [.unsupported] }
    else if s.poison.any fun u => overlaps u 8 off n then { s with out := s.out ++ [.completion (leBytes n (Config.freeBits (8 * n) s.tick 891000).toNat)] }
    else
      let m := s.memRead off n
      let w := 2 ^ (8 * n)
      let t := s.writeBy true true off (leBytes n (hostAtomic op n m (x.toNat % w) (y.toNat % w)))
      { t with out := t.out ++ [.completion (leBytes n m)] })

/-! ### Register writes (R4) -/

/-- MBCMD with go: the command (R414). -/
def State.startMail (s : State) (cmd : BitVec 8) : State :=
  match cmd.toNat with
  | 1 => s.mailVisor
  | 2 => s.mailAttest
  | 3 => s.mailStage
  | 4 => s.mailCommit
  | 5 => s.mailRoutine
  | 6 => s.mailKeyload
  | 7 => s.mailKeyclear
  | 8 => s.mailKeyexch
  | 9 => s.mailReset
  | _ => s.mailOther cmd
/-- REGISTER_WRITE: 64 bits to a register of a die's management block (R4, R397). -/
def execRegisterWrite (d : DieId) (off : BitVec 24) (v : Word) (s : State) : Out :=
  let o := off.toNat / 8 * 8
  .next (if o = 0x0C00 then
      (if v.getLsbD 63 then s.startMail (v.setWidth 8) else s.putCmd (v.setWidth 8))
    else s.putReg d o v)

end Sys2Proof.Machine
end

