-- ==== Sys2Proof/Machine/Slots.lean ====
section
/-!
DEFINITION. Sys2Proof/Machine/Slots.lean: the meaning of each slot instruction inside a bundle, the registers it names as destinations (R67), and the
order of pops (R65). Front-end words and machine events are no slots.
-/
namespace Sys2Proof.Machine

/-- What a slot does to the bundle being issued; front-end words and events stand in no slot. -/
def slotMeaning (i : Instr) (s : State) : Out :=
  match i with
  | .add g d a b => execAdd g d a b s
  | .sub g d a b => execSub g d a b s
  | .mul g d a b => execMul g d a b s
  | .mulh g d a b => execMulh g d a b s
  | .mulhN g d a b => execMulhN g d a b s
  | .div g d a b => execDiv g d a b s
  | .divN g d a b => execDivN g d a b s
  | .rem g d a b => execRem g d a b s
  | .remN g d a b => execRemN g d a b s
  | .and g d a b => execAnd g d a b s
  | .or g d a b => execOr g d a b s
  | .xor g d a b => execXor g d a b s
  | .andn g d a b => execAndn g d a b s
  | .shl g d a b => execShl g d a b s
  | .shr g d a b => execShr g d a b s
  | .sra g d a b => execSra g d a b s
  | .rol g d a b => execRol g d a b s
  | .ror g d a b => execRor g d a b s
  | .clz g d b => execClz g d b s
  | .ctz g d b => execCtz g d b s
  | .popc g d b => execPopc g d b s
  | .min g d a b => execMin g d a b s
  | .max g d a b => execMax g d a b s
  | .minN g d a b => execMinN g d a b s
  | .maxN g d a b => execMaxN g d a b s
  | .sext8 g d b => execSext8 g d b s
  | .sext16 g d b => execSext16 g d b s
  | .sext32 g d b => execSext32 g d b s
  | .zext8 g d b => execZext8 g d b s
  | .zext16 g d b => execZext16 g d b s
  | .zext32 g d b => execZext32 g d b s
  | .bfx g d a b => execBfx g d a b s
  | .bfxN g d a b => execBfxN g d a b s
  | .bfi g d a b => execBfi g d a b s
  | .sel g d a b => execSel g d a b s
  | .lea1 g d a b => execLea1 g d a b s
  | .lea2 g d a b => execLea2 g d a b s
  | .lea4 g d a b => execLea4 g d a b s
  | .lea8 g d a b => execLea8 g d a b s
  | .addS g d a b => execAddS g d a b s
  | .subS g d a b => execSubS g d a b s
  | .addSN g d a b => execAddSN g d a b s
  | .subSN g d a b => execSubSN g d a b s
  | .cmpEq g d a b => execCmpEq g d a b s
  | .cmpNe g d a b => execCmpNe g d a b s
  | .cmpLt g d a b => execCmpLt g d a b s
  | .cmpLe g d a b => execCmpLe g d a b s
  | .cmpLtN g d a b => execCmpLtN g d a b s
  | .cmpLeN g d a b => execCmpLeN g d a b s
  | .pand g d a b => execPand g d a b s
  | .por g d a b => execPor g d a b s
  | .pxor g d a b => execPxor g d a b s
  | .pandn g d a b => execPandn g d a b s
  | .pfrom g d b => execPfrom g d b s
  | .pto g d a => execPto g d a s
  | .mov g d b => execMov g d b s
  | .liImm g d imm => execLiImm g d imm s
  | .liBrim g d b => execLiBrim g d b s
  | .rdsp g d x => execRdsp g d x s
  | .wrsp g x b => execWrsp g x b s
  | .br g off => execBr g off s
  | .brcNzOffset g a off => execBrcNzOffset g a off s
  | .brcNzAbs g a b => execBrcNzAbs g a b s
  | .brcZOffset g a off => execBrcZOffset g a off s
  | .brcZAbs g a b => execBrcZAbs g a b s
  | .jr g a => execJr g a s
  | .call g off => execCall g off s
  | .ret g => execRet g s
  | .loop g off b => execLoop g off b s
  | .loopClear g => execLoopClear g s
  | .done g => execDone g s
  | .trig g => execTrig g s
  | .trap g code => execTrap g code s
  | .sys g code => execSys g code s
  | .ldI8 g d a b => execLdI8 g d a b s
  | .ldN8 g d a b => execLdN8 g d a b s
  | .ldI16 g d a b => execLdI16 g d a b s
  | .ldN16 g d a b => execLdN16 g d a b s
  | .ldI32 g d a b => execLdI32 g d a b s
  | .ldN32 g d a b => execLdN32 g d a b s
  | .ld64 g d a b => execLd64 g d a b s
  | .st8 g d a b => execSt8 g d a b s
  | .st16 g d a b => execSt16 g d a b s
  | .st32 g d a b => execSt32 g d a b s
  | .st64 g d a b => execSt64 g d a b s
  | .ldv g d a b => execLdv g d a b s
  | .stv g d a b => execStv g d a b s
  | .ldg g d a b => execLdg g d a b s
  | .stg g d a b => execStg g d a b s
  | .scld g d a b => execScld g d a b s
  | .ldxI8 g d a b => execLdxI8 g d a b s
  | .ldxN8 g d a b => execLdxN8 g d a b s
  | .ldxI16 g d a b => execLdxI16 g d a b s
  | .ldxN16 g d a b => execLdxN16 g d a b s
  | .ldxI32 g d a b => execLdxI32 g d a b s
  | .ldxN32 g d a b => execLdxN32 g d a b s
  | .ldx64 g d a b => execLdx64 g d a b s
  | .stx8 g d a b => execStx8 g d a b s
  | .stx16 g d a b => execStx16 g d a b s
  | .stx32 g d a b => execStx32 g d a b s
  | .stx64 g d a b => execStx64 g d a b s
  | .ldxAcq32 g d a sc => execLdxAcq32 g d a sc s
  | .ldxAcq64 g d a sc => execLdxAcq64 g d a sc s
  | .stxRel32 g d a sc => execStxRel32 g d a sc s
  | .stxRel64 g d a sc => execStxRel64 g d a sc s
  | .amoAdd32 g d a b => execAmoAdd32 g d a b s
  | .amoAdd64 g d a b => execAmoAdd64 g d a b s
  | .amoMin32 g d a b => execAmoMin32 g d a b s
  | .amoMin64 g d a b => execAmoMin64 g d a b s
  | .amoMax32 g d a b => execAmoMax32 g d a b s
  | .amoMax64 g d a b => execAmoMax64 g d a b s
  | .amoAnd64 g d a b => execAmoAnd64 g d a b s
  | .amoOr64 g d a b => execAmoOr64 g d a b s
  | .amoXor64 g d a b => execAmoXor64 g d a b s
  | .amoSwap32 g d a b => execAmoSwap32 g d a b s
  | .amoSwap64 g d a b => execAmoSwap64 g d a b s
  | .amoCas64 g d a b => execAmoCas64 g d a b s
  | .amoFaddF32 g d a b => execAmoFaddF32 g d a b s
  | .amoFaddF64 g d a b => execAmoFaddF64 g d a b s
  | .nbopAddF32 g d a b => execNbopAddF32 g d a b s
  | .nbopAddF64 g d a b => execNbopAddF64 g d a b s
  | .nbopAddI32 g d a b => execNbopAddI32 g d a b s
  | .nbopAddI64 g d a b => execNbopAddI64 g d a b s
  | .nbopMaxF32 g d a b => execNbopMaxF32 g d a b s
  | .nbopMinF32 g d a b => execNbopMinF32 g d a b s
  | .nbopScaleF32 g d a b => execNbopScaleF32 g d a b s
  | .nbopScaleF64 g d a b => execNbopScaleF64 g d a b s
  | .fence g sc => execFence g sc s
  | .xfence g p q => execXfence g p q s
  | .fenceIo g => execFenceIo g s
  | .vadd g f d a b => execVadd g f d a b s
  | .vsub g f d a b => execVsub g f d a b s
  | .vmul g f d a b => execVmul g f d a b s
  | .vfma g f d a b => execVfma g f d a b s
  | .vcmulC64 g d a b => execVcmulC64 g d a b s
  | .vcmulC32 g d a b => execVcmulC32 g d a b s
  | .vlrec g single d a b => execVlrec g single d a b s
  | .vmin g f d a b => execVmin g f d a b s
  | .vmax g f d a b => execVmax g f d a b s
  | .vaddS g f d a b => execVaddS g f d a b s
  | .vsubS g f d a b => execVsubS g f d a b s
  | .vcmpEq g f d a b => execVcmpEq g f d a b s
  | .vcmpLt g f d a b => execVcmpLt g f d a b s
  | .vcmpLe g f d a b => execVcmpLe g f d a b s
  | .vcvt g r d a src dst => execVcvt g r d a src dst s
  | .vand g d a b => execVand g d a b s
  | .vor g d a b => execVor g d a b s
  | .vxor g d a b => execVxor g d a b s
  | .vandn g d a b => execVandn g d a b s
  | .vsel g d a b => execVsel g d a b s
  | .vshuf g d a b => execVshuf g d a b s
  | .vbcast g wide d a => execVbcast g wide d a s
  | .vred g d a src op => execVred g d a src op s
  | .vshl g wide d a b => execVshl g wide d a b s
  | .vshr g wide d a b => execVshr g wide d a b s
  | .vsra g wide d a b => execVsra g wide d a b s
  | .vpack g d a src t => execVpack g d a src t s
  | .vunpack g d a dst t => execVunpack g d a dst t s
  | .vrcp g wide d a => execVrcp g wide d a s
  | .vrsqrt g wide d a => execVrsqrt g wide d a s
  | .vexp2 g wide d a => execVexp2 g wide d a s
  | .vlog2 g wide d a => execVlog2 g wide d a s
  | .vsincos g wide d a => execVsincos g wide d a s
  | .vtanh g wide d a => execVtanh g wide d a s
  | .bnet g c d a b => execBnet g c d a b s
  | .mma g f acc a b sc z => execMma g f acc a b sc z s
  | .mmaH g f acc a b sc z => execMmaH g f acc a b sc z s
  | .mmaSd g half acc a b z => execMmaSd g half acc a b z s
  | .sdscan g acc a b half => execSdscan g acc a b half s
  | .sdgen g acc a b basis => execSdgen g acc a b basis s
  | .mzero g acc => execMzero g acc s
  | .mld g acc a f => execMld g acc a f s
  | .mst g acc a f => execMst g acc a f s
  | .xftGo g i o => execXftGo g i o s
  | .cpy g d a b => execCpy g d a b s
  | .cpyh g d a b => execCpyh g d a b s
  | .xpose g => execXpose g s
  | .ewr g e w b => execEwr g e w b s
  | .ewrBlk g e w a b => execEwrBlk g e w a b s
  | .ego g e => execEgo g e s
  | .erd g d e w shadow => execErd g d e w shadow s
  | .tbinit g a b => execTbinit g a b s
  | .tbexpect g a b => execTbexpect g a b s
  | .tbarrive g a b => execTbarrive g a b s
  | .tbarriveG g a b => execTbarriveG g a b s
  | .tbwait g a b => execTbwait g a b s
  | .tbtest g d a => execTbtest g d a s
  | .sbset g b => execSbset g b s
  | .sbarm g a b => execSbarm g a b s
  | .dbar g b => execDbar g b s
  | .chsend g x b => execChsend g x b s
  | .chrecv g x b => execChrecv g x b s
  | .chtest g d b => execChtest g d b s
  | .grdCheck g b => execGrdCheck g b s
  | .fmtset g b => execFmtset g b s
  | .rsave g a b => execRsave g a b s
  | .rload g a b => execRload g a b s
  | .mcred g d a b => execMcred g d a b s
  | .mcst g d a b => execMcst g d a b s
  | .bnload g c a b => execBnload g c a b s
  | .sig g a b => execSig g a b s
  | .sigMax g a b => execSigMax g a b s
  | .wsig g a b => execWsig g a b s
  | .qfetch .. => .next s
  | .qfetchAdv .. => .next s
  | .bfext .. => .next s
  | .sigwait .. => .next s
  | .dispatch .. => .next s
  | .bundleIssue .. => .next s
  | .matrixOpComplete .. => .next s
  | .contextFree .. => .next s
  | .ptsTick .. => .next s
  | .randomRefill .. => .next s
  | .lookaheadStaging .. => .next s
  | .stagingComplete .. => .next s
  | .homeBankAccess .. => .next s
  | .globalReply .. => .next s
  | .storeAck .. => .next s
  | .guardCommitComplete .. => .next s
  | .copySectorPerformed .. => .next s
  | .helperRowEnd .. => .next s
  | .xposeRankServed .. => .next s
  | .xposeSendComplete .. => .next s
  | .xftTransformDone .. => .next s
  | .xftComplete .. => .next s
  | .channelDelivery .. => .next s
  | .channelCreditReturn .. => .next s
  | .barrierUpdate .. => .next s
  | .domainBarrierComplete .. => .next s
  | .placementDecision .. => .next s
  | .batchRelease .. => .next s
  | .queueFetch .. => .next s
  | .nodeStart .. => .next s
  | .save .. => .next s
  | .saveComplete .. => .next s
  | .invalidationComplete .. => .next s
  | .deactivateComplete .. => .next s
  | .routerContribution .. => .next s
  | .memberDelivery .. => .next s
  | .mcstDelivery .. => .next s
  | .resultLanding .. => .next s
  | .gauntletTimeout .. => .next s
  | .handlerTimeout .. => .next s
  | .forcedSwitchTimeout .. => .next s
  | .pageWalk .. => .next s
  | .agingInterval .. => .next s
  | .remoteAccessArrival .. => .next s
  | .negativeReply .. => .next s
  | .routeTimeout .. => .next s
  | .replyTimeout .. => .next s
  | .linkRetrain .. => .next s
  | .opticalLinkChange .. => .next s
  | .hostLinkChange .. => .next s
  | .hotReset .. => .next s
  | .resetPin .. => .next s
  | .powerGood .. => .next s
  | .powerDown .. => .next s
  | .currentWindow .. => .next s
  | .visorSample .. => .next s
  | .visorFlush .. => .next s
  | .patrolScrub .. => .next s
  | .inboundWrite .. => .next s
  | .inboundRead .. => .next s
  | .inboundAtomicop .. => .next s
  | .spdmMeasurement .. => .next s
  | .enqueue .. => .next s
  | .queueResume .. => .next s
  | .invalidation .. => .next s
  | .activate .. => .next s
  | .deactivate .. => .next s
  | .peakReset .. => .next s
  | .kreqLive .. => .next s
  | .kreqImage .. => .next s
  | .pctlReq .. => .next s
  | .pctlForce .. => .next s
  | .resume .. => .next s
  | .advance .. => .next s
  | .kill .. => .next s
  | .switch .. => .next s
  | .replay .. => .next s
  | .abandon .. => .next s
  | .tqheadWrite .. => .next s
  | .windowWrite .. => .next s
  | .visor .. => .next s
  | .attest .. => .next s
  | .stage .. => .next s
  | .commit .. => .next s
  | .handlerCommitPoint .. => .next s
  | .routine .. => .next s
  | .keyload .. => .next s
  | .keyclear .. => .next s
  | .keyexch .. => .next s
  | .reset .. => .next s
  | .mailboxOther .. => .next s
  | .registerWrite .. => .next s
  | .supplyDroop .. => .next s
  | .powerLoss .. => .next s
  | .helperFault .. => .next s
  | .contributionRead .. => .next s

/-- What two slots of one bundle may not both name (R67, R84): a register, an accumulator, the set of the transform engine (R167, R239). -/
inductive Target where
  | reg (d : Dest)
  | acc (a : Fin 8)
  | xft
deriving DecidableEq, Repr
/-- The destinations that an instruction names, implied ones included. -/
def targetsAll : Instr → List Target
  | .add _ d _ _ | .sub _ d _ _ | .mul _ d _ _ | .mulh _ d _ _ | .mulhN _ d _ _ | .div _ d _ _ | .divN _ d _ _ | .rem _ d _ _ | .remN _ d _ _
  | .and _ d _ _ | .or _ d _ _ | .xor _ d _ _ | .andn _ d _ _ | .shl _ d _ _ | .shr _ d _ _ | .sra _ d _ _ | .rol _ d _ _ | .ror _ d _ _ | .clz _ d _
  | .ctz _ d _ | .popc _ d _ | .min _ d _ _ | .max _ d _ _ | .minN _ d _ _ | .maxN _ d _ _ | .sext8 _ d _ | .sext16 _ d _ | .sext32 _ d _
  | .zext8 _ d _ | .zext16 _ d _ | .zext32 _ d _ | .bfx _ d _ _ | .bfxN _ d _ _ | .bfi _ d _ _ | .sel _ d _ _ | .lea1 _ d _ _ | .lea2 _ d _ _
  | .lea4 _ d _ _ | .lea8 _ d _ _ | .addS _ d _ _ | .subS _ d _ _ | .addSN _ d _ _ | .subSN _ d _ _ | .pto _ d _ | .mov _ d _ | .liImm _ d _
  | .liBrim _ d _ | .rdsp _ d _ | .ldI8 _ d _ _ | .ldN8 _ d _ _ | .ldI16 _ d _ _ | .ldN16 _ d _ _ | .ldI32 _ d _ _ | .ldN32 _ d _ _ | .ld64 _ d _ _
  | .ldxI8 _ d _ _ | .ldxN8 _ d _ _ | .ldxI16 _ d _ _ | .ldxN16 _ d _ _ | .ldxI32 _ d _ _ | .ldxN32 _ d _ _ | .ldx64 _ d _ _ | .ldxAcq32 _ d _ _
  | .ldxAcq64 _ d _ _ | .amoAdd32 _ d _ _ | .amoAdd64 _ d _ _ | .amoMin32 _ d _ _ | .amoMin64 _ d _ _ | .amoMax32 _ d _ _ | .amoMax64 _ d _ _
  | .amoAnd64 _ d _ _ | .amoOr64 _ d _ _ | .amoXor64 _ d _ _ | .amoSwap32 _ d _ _ | .amoSwap64 _ d _ _ | .amoCas64 _ d _ _ | .amoFaddF32 _ d _ _
  | .amoFaddF64 _ d _ _ | .bnet _ _ d _ _ | .erd _ d _ _ _ | .tbtest _ d _ | .chtest _ d _ => [.reg (.s d)]
  | .cmpEq _ d _ _ | .cmpNe _ d _ _ | .cmpLt _ d _ _ | .cmpLe _ d _ _ | .cmpLtN _ d _ _ | .cmpLeN _ d _ _ | .pand _ d _ _ | .por _ d _ _
  | .pxor _ d _ _ | .pandn _ d _ _ | .pfrom _ d _ | .vcmpEq _ _ d _ _ | .vcmpLt _ _ d _ _ | .vcmpLe _ _ d _ _ => [.reg (.p d)]
  | .ldv _ d _ _ | .ldg _ d _ _ | .vadd _ _ d _ _ | .vsub _ _ d _ _ | .vmul _ _ d _ _ | .vfma _ _ d _ _ | .vcmulC64 _ d _ _ | .vcmulC32 _ d _ _
  | .vlrec _ _ d _ _ | .vmin _ _ d _ _ | .vmax _ _ d _ _ | .vaddS _ _ d _ _ | .vsubS _ _ d _ _ | .vcvt _ _ d _ _ _ | .vand _ d _ _ | .vor _ d _ _
  | .vxor _ d _ _ | .vandn _ d _ _ | .vsel _ d _ _ | .vshuf _ d _ _ | .vbcast _ _ d _ | .vred _ d _ _ _ | .vshl _ _ d _ _ | .vshr _ _ d _ _
  | .vsra _ _ d _ _ | .vpack _ d _ _ _ | .vunpack _ d _ _ _ | .vrcp _ _ d _ | .vrsqrt _ _ d _ | .vexp2 _ _ d _ | .vlog2 _ _ d _ | .vtanh _ _ d _ => [.reg (.v d)]
  | .scld _ d _ _ => [.reg (.sc d)]
  | .mma _ _ acc _ _ _ _ => [.acc acc]
  | .mmaH _ _ acc _ _ _ _ => [.acc acc]
  | .mmaSd _ _ acc _ _ _ => [.acc acc]
  | .sdgen _ acc _ _ _ => [.acc acc]
  | .mzero _ acc => [.acc acc]
  | .mld _ acc _ _ => [.acc acc]
  | .vsincos _ _ d _ => [.reg (.v d), .reg (.v ⟨(d.val + 1) % 32, Nat.mod_lt _ (by decide)⟩)]
  | .mcred _ d a _ => [.reg (.v d), .reg (.s ⟨(a.val + 1) % 64, Nat.mod_lt _ (by decide)⟩)]
  | .sdscan _ acc _ b _ => [.acc acc, .reg (.s b), .reg (.s ⟨(b.val + 1) % 64, Nat.mod_lt _ (by decide)⟩)]
  | .chrecv _ (.scalar d) _ => [.reg (.s d)]
  | .chrecv _ (.vector d) _ => [.reg (.v d)]
  | .wrsp _ x _ => [.reg (.spec x)]
  | .fmtset _ _ => [.reg (.spec .fmtn)]
  | .rload _ _ _ => [.reg (.spec .rseed), .reg (.spec .rpos)]
  | .call _ _ => [.reg (.s 63)]
  | .xftGo _ _ _ | .ewr _ .xft _ _ | .ewrBlk _ .xft _ _ _ | .ego _ .xft => [.xft]
  | _ => []
/-- `s0` is never a duplicate destination (R67). -/
def targets (i : Instr) : List Target := (targetsAll i).filter fun t => t != .reg (.s 0)

/-! ### What a slot word names in its own fields, legal or not (R60, R61, R66, R67, R73; assumption 29) -/

def inRange (lo hi n : Nat) : Bool := decide (lo ≤ n ∧ n ≤ hi)
/-- A destination field that holds a legal number. -/
def predTarget (f : Fin 64) : List Target := ((predOf f).map fun r => Target.reg (.p r)).toList
def vecTarget (f : Fin 64) : List Target := ((vnumOf f).map fun r => Target.reg (.v r)).toList
def scaleTarget (f : Fin 64) : List Target := ((scaleOf f).map fun r => Target.reg (.sc r)).toList
/-- Destinations of an A or B word. -/
def scalarTargets (wk : WordKind) (r : RWord) : List Target :=
  let o := r.op.val
  if o ≤ 0x2A ∨ o = 0x4B ∨ inRange 0x50 0x52 o then [.reg (.s r.d)]
  else if inRange 0x40 0x4A o then predTarget r.d
  else if o = 0x53 then ((specOf r.d.val).filter SpecReg.writable).toList.map fun x => Target.reg (.spec x)
  else if wk = .b ∧ o = 0x64 then [.reg (.s 63)]
  else []
/-- Destinations of an L or K word. -/
def memTargets (r : RWord) : List Target :=
  let o := r.op.val
  if o ≤ 0x06 ∨ inRange 0x20 0x26 o ∨ inRange 0x2B 0x2C o ∨ inRange 0x2F 0x3C o then [.reg (.s r.d)]
  else if o = 0x0B ∨ o = 0x0D then vecTarget r.d
  else if o = 0x0F then scaleTarget r.d
  else []
/-- Destinations of a V or X word. -/
def vecTargets (wk : WordKind) (r : RWord) : List Target :=
  let o := r.op.val
  if inRange 0x38 0x4B o then predTarget r.d
  else if o ≤ 0x5F then vecTarget r.d
  else if wk ≠ .x then []
  else if o = 0x68 ∨ o = 0x69 then (if evenReg r.d then vecTarget r.d ++ vecTarget (r.d + 1) else [])
  else if o ≤ 0x6B then vecTarget r.d
  else if inRange 0x70 0x77 o then [.reg (.s r.d)]
  else []
/-- Destinations of an M word. -/
def matrixTargets (r : MWord) : List Target :=
  let o := r.op.val
  if o ≤ 0x0A ∨ inRange 0x10 0x1A o ∨ inRange 0x40 0x41 o ∨ o = 0x49 ∨ inRange 0x60 0x61 o then [.acc r.acc]
  else if o = 0x48 then .acc r.acc :: (if !r.l && evenReg r.b then [.reg (.s r.b), .reg (.s (r.b + 1))] else [])
  else if o = 0x63 then [.xft]
  else []
/-- Destinations of an E word. -/
def engineTargets (r : RWord) : List Target :=
  match r.op.val with
  | 0x03 | 0x04 => if engOf (r.d.val / 16) = some .xft then [.xft] else []
  | 0x05 | 0x34 | 0x52 => [.reg (.s r.d)]
  | 0x51 => if r.a = 0 then [.reg (.s r.d)] else if r.a = 1 then vecTarget r.d else []
  | 0x54 => [.reg (.spec .fmtn)]
  | 0x56 => [.reg (.spec .rseed), .reg (.spec .rpos)]
  | 0x57 => vecTarget r.d ++ (if evenReg r.a && r.a != 0 then [.reg (.s (r.a + 1))] else [])
  | _ => []
/-- The destinations that a word's own fields name; `s0` is none (R67). -/
def wordTargets (wk : WordKind) (w : Nat) : List Target :=
  (match wk with
    | .a | .b => scalarTargets wk (RWord.ofNat w)
    | .l | .k => memTargets (RWord.ofNat w)
    | .v | .x => vecTargets wk (RWord.ofNat w)
    | .m => matrixTargets (MWord.ofNat w)
    | .e => engineTargets (RWord.ofNat w)
    | .front => []).filter fun (t : Target) => t != Target.reg (.s 0)

/-- The word's opcode takes a brim reference in b and its bl is 1 (R60, R61, R73). -/
def takesBrim (wk : WordKind) (w : Nat) : Bool :=
  let r := RWord.ofNat w
  let m := MWord.ofNat w
  let o := r.op.val
  match wk with
  | .a | .b => r.l && (o ≤ 0x2A || inRange 0x40 0x4A o || inRange 0x50 0x51 o || o == 0x53 || (wk == .b && (inRange 0x61 0x62 o || (o == 0x66 && r.loopOff != 0))))
  | .l | .k => r.l && (o ≤ 0x0C || o == 0x0F || inRange 0x20 0x2A o || inRange 0x2F 0x3C o || inRange 0x40 0x47 o)
  | .v | .x => r.l && (o ≤ 0x1B || o == 0x1D || inRange 0x20 0x4B o || inRange 0x50 0x55 o || inRange 0x58 0x5D o || (wk == .x && inRange 0x70 0x77 o))
  | .m => m.l && (o ≤ 0x0A || inRange 0x10 0x1A o || inRange 0x40 0x41 o || o == 0x49 || (o == 0x63 && m.flags.val / 2 % 2 == 1))
  | .e => r.l && (o ≤ 0x01 || o == 0x03 || inRange 0x30 0x33 o || inRange 0x35 0x37 o || inRange 0x50 0x5B o)
  | .front => false
/-- The brim words that a word's reference names stand in a brim of `n` words (R66). -/
def wordWithin (wk : WordKind) (w n : Nat) : Bool :=
  let b := match wk with | .m => (MWord.ofNat w).b.val | _ => (RWord.ofNat w).b.val
  decide (b / 8 + (if b % 8 = 2 then 1 else 0) < n)

/-- The bit of a slot kind in the crown's mask (R55, R56). -/
def slotNo : WordKind → Fin 8
  | .a => 0
  | .b => 1
  | .l => 2
  | .k => 3
  | .v => 4
  | .x => 5
  | .m => 6
  | .e => 7
  | .front => 0

end Sys2Proof.Machine
end

