-- ==== Sys2Proof/Machine/Bundle.lean ====
section
/-!
DEFINITION. Sys2Proof/Machine/Bundle.lean: BUNDLE_ISSUE: a core's cycle (R5, R6, R17 to R22, R55 to R59, R67 to R74, R112, R113, R115, R354, R361), and
RANDOM_REFILL (R267).
-/
namespace Sys2Proof.Machine

/-! ### Cycles and freezes (R5, R6, R71, R354) -/

/-- The freeze of the core awaits random bits (R119, R354). -/
def Core.awaitsRandom (k : Core) : Bool := k.record.isNone && k.freeze.any fun f => f.cause == .random
/-- One vector joins the random-bits queue while it holds fewer than 16 (R267). -/
def Core.refill (k : Core) : Core := if k.rndCount < 16 then { k with rndCount := k.rndCount + 1 } else k
/-- RANDOM_REFILL (R267): the generator of an enabled core stands still in a freeze (R6), but in one that awaits it. -/
def execRandomRefill (c : CoreId) (s : State) : Out :=
  .next (if s.coreEnabled c && (!(s.core c).halted || (s.core c).awaitsRandom) then s.mapCore c Core.refill else s)

/-- A clock period passes while the core is frozen (R5, R355): the gauntlet counts it for its causes while no record is outstanding; a core that no
freeze holds yet starts one. The random-bits generator runs on in a freeze that awaits it (R267). -/
def Core.frozenPeriod (k : Core) (cause : FreezeCause) (x : CtxId) (committed : Bool) (accs : List Nat) : Core :=
  let f := k.freeze.getD ⟨cause, x, 0, 0, committed, accs⟩
  { ((if f.cause = .random ∧ k.record.isNone then k.refill else k).count 3 1) with
    freeze := some { f with length := f.length + 1, count := f.count + (if f.cause.counted && k.record.isNone then 1 else 0) } }
/-- The bundle of context `x` waits for a cause before its commit: a freeze of another cause ends (R328, R354). The walks it has waited for stay. -/
def State.waitPeriod (s : State) (c : CoreId) (cause : FreezeCause) (x : CtxId) : State :=
  let s := match (s.core c).freeze with
    | some f => if f.cause = cause ∧ f.ctx = x ∧ !f.committed then s else s.countFreeze c
    | none => s
  s.mapCore c fun k => k.frozenPeriod cause x false []
/-- A freeze of a known length, over within this step (R143, R189). -/
def State.wholeFreeze (s : State) (c : CoreId) (n : Nat) : State :=
  if n = 0 then s else (s.visorAdd (visorFreeze c.die (min 31 n.log2)) 1).mapCore c fun k => k.count 3 n

/-- The value of an access or of a collective is still awaited. -/
def Core.awaits (k : Core) (id : Nat) : Bool := k.accesses.any (fun a => a.id == id) || k.inflight.any fun e => e.acc == some id && e.val.isNone
/-- The results that are due land, in the order of their issue; those that have landed and whose bound has elapsed are over (R68, R69). -/
def State.landDue (s : State) (c : CoreId) : State :=
  let k := s.core c
  let due := k.inflight.zipIdx.filterMap fun (p : InFlight × Nat) => if decide (p.1.due ≤ k.cycle) && !p.1.landed then some p.2 else none
  (due.foldl (fun t i => t.landAt c i) s).mapCore c fun k => { k with inflight := k.inflight.filter fun e => !(e.landed && decide (e.due ≤ k.cycle)) }
/-- A result whose bound has elapsed and whose value has not come (R71). -/
def Core.late (k : Core) : Option InFlight := k.inflight.find? fun e => decide (e.due ≤ k.cycle) && e.val.isNone

/-- A pattern replaced two cycles ago is the one in use (R300). -/
def Core.installPatterns (k : Core) : Core :=
  let ready := k.patPend.filter fun (p : Nat × Fin 8 × BitVec 512) => decide (p.1 + 2 ≤ k.cycle)
  { k with
    patterns := ready.foldl (fun v (p : Nat × Fin 8 × BitVec 512) => v.set p.2.1.val p.2.2 p.2.1.isLt) k.patterns
    patPend := k.patPend.filter fun (p : Nat × Fin 8 × BitVec 512) => !decide (p.1 + 2 ≤ k.cycle) }
/-- A cycle of a context that is Running, whether it issues or a request holds it at a safe point (R17, R217). -/
def Ctx.runTick (y : Ctx) : Ctx := if y.st = .running then ({ y with runCount := y.runCount + 1 } : Ctx).ptsTick else y
/-- The end of a core cycle (R5, R22, R217, R231, R313): the contexts that what the cycle has done lets go on are ready, the units that have come to their end
complete, a guard commit goes on, and the results due in the next cycle land. -/
def State.endCycle (s : State) (c : CoreId) : State :=
  let s := (s.wake c).mapCore c fun k =>
    ({ (ctxIds.foldl (fun k x => k.mapCtx x Ctx.runTick) k).refill.count 0 1 with cycle := k.cycle + 1 } : Core).installPatterns
  let s := match (s.core c).mtx with
    | some m => if m.ends ≤ (s.core c).cycle then s.finishMtx c else s
    | none => s
  let s := match (s.core c).xft with
    | some o => if o.start + planD (s.core c).eng1.active ≤ (s.core c).cycle then s.finishXft c else s
    | none => s
  (s.drainSome c).landDue c

/-! ### Choosing a context (R19, R367) -/

/-- The context may issue. -/
def Ctx.canRun (y : Ctx) : Bool := (y.st == .ready || y.st == .running) && !y.held
/-- The earlier of two ready contexts; a tie goes to the lower number. -/
def Core.earlier (k : Core) (b : Option CtxId) (x : CtxId) : Option CtxId :=
  match b with
  | none => some x
  | some y => if (k.ctx x).readyAt < (k.ctx y).readyAt then some x else some y
/-- The context that issues in this cycle: the running one, or the ready one with the earliest ready time. -/
def Core.choose (k : Core) : Option CtxId :=
  match k.running.filter fun x => (k.ctx x).canRun with
  | some x => some x
  | none => (ctxIds.filter fun x => (k.ctx x).canRun).foldl k.earlier none
/-- The context runs; a queue of another context's random bits is discarded (R267). -/
def Core.enter (k : Core) (x : CtxId) : Core :=
  { k.mapCtx x fun y => { y with st := .running } with
    running := some x
    rndOwner := x
    rndCount := if k.rndOwner = x then k.rndCount else 0 }

/-! ### Fetch (R55 to R59, R107, R361) -/

/-- The record of a bundle that is not fetched: its PC, the byte after it, and the target that was missed. Assumption 38. -/
structure Missed where
  code : Nat
  pc : BitVec 18
  next : BitVec 18
  addr : Word
deriving DecidableEq, Repr

/-- The words and the crown of the bundle that a context issues, or what its fetch raises (R56, R59, R107). The words of a replay record stand for
those at the PC, which has been reached before (R361, R373). -/
def Core.fetch (k : Core) (x : CtxId) : Except Missed (Crown × List Word32) :=
  let y := k.ctx x
  let w := y.pc.toNat / 4
  let ws := k.nextWords x
  let illegal : Missed := ⟨Code.illegalBundle, y.pc, pcPlus y.pc (k.bundleLen w), 0⟩
  let missed : Option Missed :=
    match y.replay, y.via with
    | some _, _ => none
    | none, some v =>
      if v.settled = true ∧ v.target.toNat % 4 = 0 ∧ v.target.toNat < 2 ^ 18 ∧ k.marked w then none
      else some ⟨Code.badTarget, v.src, pcPlus v.src (k.bundleLen (v.src.toNat / 4)), v.target⟩
    | none, none => if k.marked w then none else some illegal
  match missed, decodeCrown (ws.headD 0) with
  | some m, _ => .error m
  | none, .error _ => .error illegal
  | none, .ok c => if 65536 < w + c.len then .error illegal else .ok (c, ws.take c.len)

/-- A slot of a fetched bundle: its kind, its word, and the instruction the word names (R73). -/
structure SlotWord where
  kind : WordKind
  word : Nat
  instr : Except Reject Instr
/-- The slots of a bundle in mask order. -/
def slotWords (c : Crown) (ws : List Word32) : List SlotWord :=
  (c.kinds.zip (ws.drop 1)).map fun (p : WordKind × Word32) => ⟨p.1, p.2.toNat, decodeWord p.1 p.2.toNat⟩
/-- The instruction, if the word names one. -/
def SlotWord.get (w : SlotWord) : Option Instr := match w.instr with | .ok i => some i | .error _ => none

/-! ### Checks on the bundle as a whole (R63, R66, R67, R73, R74, R111, R167, R350; assumption 29) -/

def isDone : Instr → Bool
  | .done _ => true
  | _ => false
/-- Two slots name one destination. -/
def hasRepeat : List Target → Bool
  | [] => false
  | t :: r => r.contains t || hasRepeat r
/-- The destinations of one slot, once each: of an illegal word those that its legal fields name (R67). Assumption 29. -/
def SlotWord.targets (w : SlotWord) : List Target :=
  (match w.instr with | .ok i => Machine.targets i | .error _ => wordTargets w.kind w.word).eraseDups
/-- The slot references a brim word that the bundle does not hold (R66), whatever its other fields are. -/
def SlotWord.pastBrim (n : Nat) (w : SlotWord) : Bool := takesBrim w.kind w.word && !wordWithin w.kind w.word n
/-- The word has an opcode of one slot kind. -/
def SlotWord.isOp (k : WordKind) (op : Nat) (w : SlotWord) : Bool := w.kind == k && (RWord.ofNat w.word).op.val == op
/-- Bit of a slot in a fault mask. -/
def slotBit (n : Fin 8) : BitVec 8 := 1#8 <<< n.val
/-- What the loop of a bundle raises by its offset, whatever its other fields are (R74, R111). -/
def State.loopCode (s : State) (w : SlotWord) : Option Nat :=
  if w.isOp .b 0x66 ∧ (RWord.ofNat w.word).loopOff ≠ 0 then s.loopFault (RWord.ofNat w.word).loopOff else none
/-- The first fault of the first three kinds of R74, with its mask. -/
def State.bundleCheck (s : State) (c : Crown) (ws : List SlotWord) : Option (Nat × BitVec 8) :=
  let illegal := (ws.filter fun w => w.get.isNone || s.loopCode w == some Code.illegalOp).foldl (fun m w => m ||| slotBit (slotNo w.kind)) 0
  if ws.any fun w => s.loopCode w == some Code.badTarget then some (Code.badTarget, 0)
  else if ws.any (SlotWord.pastBrim c.brim)
      || hasRepeat (ws.flatMap (·.targets))
      || (ws.any (SlotWord.isOp .e 0x53) && !(ws.any (SlotWord.isOp .b 0x67))) then some (Code.illegalBundle, 0)
  else if illegal ≠ 0 then some (Code.illegalOp, illegal)
  else none

/-! ### Executing the slots (R67, R74) -/

/-- The state after a slot; slots never stop the machine. -/
def afterSlot (o : Out) (s : State) : State := match o with | .next t => t | _ => s
/-- Slot `n` of the bundle being issued, after `pops` pops of earlier slots. -/
def State.slotOnce (s : State) (n : Fin 8) (pops : Nat) (i : Instr) : State :=
  afterSlot (slotMeaning i (s.mapIssue fun j => { j with slot := n, pops := pops })) s
/-- Every slot on its own, from the state before the bundle, so that no slot reads what another writes (R67). -/
def State.slotResults (s : State) : Nat → List (Fin 8 × Instr) → List (Fin 8 × Instr × State)
  | _, [] => []
  | pops, (n, i) :: t => (n, i, s.slotOnce n pops i) :: s.slotResults (s.slotOnce n pops i).issue.pops t

/-- In a task under a guard, a bundle that holds `done` executes no `grd.check` (R350). -/
def guardMissing (s : State) (slots : List (Fin 8 × Instr)) (rs : List (Fin 8 × Instr × State)) : List SlotFault :=
  if s.my.grd && (slots.any fun p => isDone p.2) && !(rs.any fun r => r.2.2.issue.verdict.isSome) then [⟨1, BitVec.ofNat 8 Code.guardForbidden, 0, 0⟩]
  else []
/-- The lowest code of some faults. -/
def lowestCode (fs : List SlotFault) : BitVec 8 := fs.foldl (fun m f => if f.code < m then f.code else m) 255
/-- The fault that is reported (R74): the lowest code, every slot that raised it, addr and info of the first such slot. -/
def mergeFaults (fs : List SlotFault) : Option (BitVec 8 × SlotFault) :=
  let code := lowestCode fs
  match fs.find? fun f => f.code == code with
  | none => none
  | some f => some ((fs.filter fun g => g.code == code).foldl (fun m g => m ||| slotBit g.slot) 0, f)

/-- What a bundle comes to. -/
inductive Verdict where
  | fault (mask : BitVec 8) (f : SlotFault)
  | block (b : BlockOn) (t : State)
  | wait (f : FreezeCause) (t : State)
  | commit
deriving Repr

/-- A store to another package, or a collective with a member there, finds the send queue of its port full, for as long as chance has it (R235); one that
nothing has entered since ready is empty. Assumption 80. -/
def State.queueFull (s t : State) : Bool :=
  s.pkg.queued != 0 && ((t.issue.stores.any fun x => match x with | .glob a => isStore a.kind && regionClass a.pa == some .remote | _ => false) ||
    (t.pkg.colls.drop s.pkg.colls.length).any fun o => (t.collGroup o).any fun g => g.members.any fun w => !t.isOwn (memberOf w)) &&
      Config.freeChoice s.tick 980000

/-- The faults of some executed slots, in slot order, with the one that R350 gives the bundle. -/
def slotFaults (missing : List SlotFault) (rs : List (Fin 8 × Instr × State)) : List SlotFault :=
  let faults := rs.flatMap fun r => r.2.2.issue.faults
  (faults.filter fun f => decide (f.slot ≤ 1)) ++ missing ++ faults.filter fun f => decide (1 < f.slot)
/-- The checks that need no translation, made in every slot before any walk starts: a fault with a code below 0x22 goes before every walk (R74). -/
def State.earlyFault (s : State) (slots : List (Fin 8 × Instr)) : Option (BitVec 8 × SlotFault) :=
  mergeFaults (slotFaults [] ((s.mapIssue fun i => { i with noWalk := true }).slotResults 0 slots)) |>.filter fun f => decide (f.2.code.toNat < Code.pageFault)
/-- The walks that the slots need start, or wait for a walker (R206, R280). -/
def State.startWalks (s : State) (rs : List (Fin 8 × Instr × State)) : State :=
  (rs.flatMap fun r => r.2.2.issue.walks).foldl (fun t va => t.requestWalk s.issue.core s.issue.ctx s.asid va) s
/-- The early faults go first; then every walk that a slot needs ends, and their faults join the comparison of R74. A fault goes before a block, a block
before a wait (R74, R236), and a full send queue is met last (R235). A bundle that blocks in its E slot alone keeps what that slot has done (R322); one that waits for staging keeps the fetch it has
started (R149). Assumption 45. -/
def State.judge (s : State) (slots : List (Fin 8 × Instr)) : Verdict :=
  let rs := s.slotResults 0 slots
  match s.earlyFault slots, rs.any fun r => r.2.2.issue.waits == some .walk with
  | some (m, f), _ => .fault m f
  | none, true => .wait .walk (s.startWalks rs)
  | none, false =>
  match mergeFaults (slotFaults (guardMissing s slots rs) rs) with
  | some (m, f) => .fault m f
  | none =>
    match rs.find? fun r => r.2.2.issue.blocked.isSome && r.1 != 7, rs.find? fun r => r.2.2.issue.blocked.isSome with
    | some r, _ => .block (r.2.2.issue.blocked.getD .copyFull) s
    | none, some r => .block (r.2.2.issue.blocked.getD .copyFull) r.2.2
    | none, none =>
      match rs.find? fun r => r.2.2.issue.waits.isSome with
      | some r => .wait (r.2.2.issue.waits.getD .fence) (if r.2.2.issue.waits = some .staging then r.2.2 else s)
      | none =>
        if s.me.rndCount < (rs.getLast?.map fun r => r.2.2.issue.pops).getD 0 then .wait .random s
        else if rs.any fun r => s.queueFull r.2.2 then .wait .send s
        else .commit

/-- An `erd` reads its engine before `xft.go` of the same bundle changes it (R67). Assumption 46. -/
def readsFirst : Instr → Bool
  | .erd .. => true
  | _ => false
/-- Every slot of a bundle that commits, one after another: what they write lands or is staged, so none reads it. -/
def State.runSlots (s : State) (slots : List (Fin 8 × Instr)) : State :=
  ((slots.filter fun p => readsFirst p.2) ++ slots.filter fun p => !readsFirst p.2).foldl (fun t p => t.slotOnce p.1 t.issue.pops p.2) s

/-! ### Commit (R67, R112, R113, R115, R349) -/

/-- A buffered store merges into its unit or takes a new one (R207, R349); one that writes the whole unit leaves no error in it (R407). -/
def Core.bufferStore (k : Core) (x : CtxId) (pa n : Nat) (p : BitVec 2) (v : Nat) : Core :=
  let u := pa / 8 * 8
  let m : BitVec 8 := BitVec.ofNat 8 ((2 ^ n - 1) * 2 ^ (pa % 8))
  let bits8 : Nat := (2 ^ (8 * n) - 1) * 256 ^ (pa % 8)
  let put (old : Word) : Word := (old &&& ~~~ BitVec.ofNat 64 bits8) ||| BitVec.ofNat 64 (v % 2 ^ (8 * n) * 256 ^ (pa % 8))
  if k.mitten.any fun e => e.ctx == x && e.pa == u then
    { k with mitten := k.mitten.map fun e => if e.ctx = x ∧ e.pa = u then { e with mask := e.mask ||| m, data := put e.data, bad := e.bad && n != 8 } else e }
  else { k with mitten := k.mitten ++ [⟨x, u, p, m, put 0, false⟩] }
/-- A staged scratchpad store takes place, once the acquires of its bundle have returned (R67, R214). -/
def State.putOwn (s : State) (x : Staging) : State :=
  if s.issue.acqWait.isEmpty then s.putStaged s.issue.core s.issue.ctx x else s.mapMe fun k => { k with heldStores := k.heldStores ++ [(s.issue.ctx, x)] }
/-- What a slot has staged takes place (R67); a store that follows a fence is a release at its scope (R221). -/
def State.applyStaged (s : State) : Staging → State
  | .spad a n v => s.putOwn (.spad a n v)
  | .flag pa n points => s.putOwn (.flag pa n points)
  | .glob a => s.mapMe fun k => { k with accesses := k.accesses ++ [if isStore a.kind then { a with points := a.points ++ s.my.sync.rels } else a] }
  | .buffered pa n p v => s.mapMe fun k => k.bufferStore s.issue.ctx pa n p v.toNat
/-- The loads of a bundle without an acquire have read the scratchpad for good (R214). -/
def Core.readDone (k : Core) (x : CtxId) : Core := { k with inflight := k.inflight.map fun e => if e.ctx = x then { e with src := [] } else e }
/-- Pops move `%rpos` on, and a position that an earlier `rload` will land (R119, R269); a new seed discards the queue (R267). Assumption 47. -/
def Core.applyPops (k : Core) (x : CtxId) (n : Nat) : Core :=
  let k := { k with
    inflight := k.inflight.map fun (e : InFlight) =>
      if e.ctx = x ∧ e.dest = Dest.spec .rpos ∧ e.issued < k.cycle ∧ !e.landed then { e with val := e.val.map fun (v : VWord) => (v.setWidth 64 + BitVec.ofNat 64 n).setWidth 2048 } else e
    rndCount := if k.inflight.any fun (e : InFlight) => e.ctx == x && e.dest == Dest.spec .rseed && e.issued == k.cycle then 0 else k.rndCount - n }
  (k.mapCtx x fun y => { y with rpos := y.rpos + BitVec.ofNat 64 n }).count 14 n
/-- Where the context goes on (R57, R107, R112). -/
def Ctx.goOn (y : Ctx) (i : Issue) : Ctx :=
  let y' := { y with loop := i.loopSet.getD y.loop, replay := none }
  match i.jump with
  | some t => { y' with pc := t.setWidth 18, via := some ⟨i.pc, t, !i.jumpOpen⟩ }
  | none =>
    if i.loopSet.isNone ∧ y.loop.count ≠ 0 ∧ y.loop.endw.toNat = i.pc.toNat / 4 then
      { y' with
        loop := { y.loop with count := y.loop.count - 1 }
        pc := BitVec.ofNat 18 (4 * y.loop.startw.toNat)
        via := some ⟨i.pc, BitVec.ofNat 64 (4 * y.loop.startw.toNat), true⟩ }
    else { y' with pc := pcPlus i.pc i.len, via := none }
/-- The bank of a 64-byte word (R188). -/
def bankOfWord (w : Nat) : Nat := bits w 12 2 * 16 + bits w 0 4
/-- Clock periods of contention among the slots of a bundle (R189): the largest number of distinct words of one bank, less one. Assumption 56. -/
def contention (ws : List Nat) : Nat :=
  let d := ws.eraseDups
  (d.foldl (fun m w => max m (d.countP fun v => bankOfWord v == bankOfWord w)) 0) - 1
/-- A safe point holds the context while a request is pending: it stays Running until it is saved, and issues nothing (R17, R367). -/
def Core.safePoint (k : Core) (x : CtxId) (safe : Bool) : Core :=
  if safe ∧ k.pctlState = 1 ∧ (k.ctx x).st = .running then { k.mapCtx x fun y => { y with held := true } with running := none } else k
/-- The end of the task whose `done` has committed (R113, R349). -/
def State.finishTask (s : State) (c : CoreId) (x : CtxId) (v : Option Bool) : State :=
  if (s.ctx c x).grd then s.guardDone c x (v.getD false) else s.endTask c x .done
/-- The bundle commits: `s` is the state after its slots. Its own trap is taken before a poisoned result of an earlier bundle can land at the end of the
cycle, which then waits for the resume (R115, R357). The core freezes until its acquires have returned (R221). Assumption 44. -/
def State.commitBundle (s : State) : State :=
  let i := s.issue
  let c := i.core
  let x := i.ctx
  let s := i.stores.foldl State.applyStaged (if i.acqWait.isEmpty then s.mapCore c fun k => k.readDone x else s)
  let w := contention i.touched
  let s := (s.wholeFreeze c w).mapCore c fun k =>
    ((k.count 13 w).count 1 1).applyPops x i.pops |>.mapCtx x fun y => if i.retire then { y.stepFmt with replay := none, loop := i.loopSet.getD y.loop } else y.stepFmt.goOn i
  let s := if (s.core c).mitten.length ≤ 32768 then (if i.retire then s.finishTask c x i.verdict else s) else s.discardTask c x true
  let s := s.mapCore c fun k => k.safePoint x i.safe
  let s := match i.trap with
    | some (code, info) => s.takeTrap ⟨0, c, x, 0, 1, code, pcPlus i.pc i.len, i.pc, 0, info.setWidth 64⟩ i.words
    | none => s
  let s := (s.endCycle c).mapCore c fun k =>
    if k.freeze.isNone && i.acqWait.any k.awaits then { k with freeze := some ⟨.reply, x, 0, 0, true, i.acqWait⟩ } else k
  s.wake c

/-! ### A core's cycle (R6, R17 to R20) -/

/-- The counter of a block (R327). -/
def BlockOn.counter : BlockOn → Nat
  | .tbwait _ _ => 5
  | .chanEmpty _ | .chanFull _ => 6
  | .dbar | .transfers => 7
  | .copyFull | .shadow _ => 8
/-- The bundle blocks: it commits no slot, and no other context issues in this cycle (R18, R19), which does not count as one in which its context is Running:
the model's choice, as R217 does not say (assumption 99). -/
def State.blockBundle (s : State) (c : CoreId) (x : CtxId) (b : BlockOn) : State :=
  ((s.mapCore c fun k => { (k.mapCtx x fun y => { y with st := .blocked, on_ := some b, held := y.held || k.pctlState == 1 }).count b.counter 1 with
    running := none }).endCycle c).wake c
/-- The matrix wait (R143): the core stands still until the operation in progress completes. Where it follows the CORE or NB part of the same `xfence`, it
has run since that freeze began, and goes on as one freeze (R225, R328). -/
def State.matrixWait (s : State) (c : CoreId) : State :=
  match (s.core c).mtx, (s.core c).freeze.filter fun f => f.cause == .fenceMatrix && !f.committed with
  | none, _ => s
  | some m, none =>
    let n := m.ends - (s.core c).cycle
    ((s.wholeFreeze c n).mapCore c fun k => k.count 4 n).finishMtx c
  | some m, some f =>
    let n := m.ends - (s.core c).cycle
    let more := n - f.length
    (s.mapCore c fun k => { (k.count 3 more).count 4 n with freeze := some { f with length := f.length + more, count := f.count + more } }).finishMtx c
/-- The bundle being issued, before its slots. -/
def State.openBundle (s : State) (c : CoreId) (x : CtxId) (cr : Crown) (ws : List Word32) : State :=
  { s with issue := { Issue.idle with
    core := c, ctx := x, pc := (s.ctx c x).pc, len := cr.len, words := ws, brim := (ws.drop (1 + cr.kinds.length)).take cr.brim, safe := cr.safe } }
/-- No bundle is being issued. -/
def State.closeBundle (s : State) : State := { s with issue := .idle }
/-- A bundle with legal slots is judged; one that waits for the matrix unit is judged again once the unit is free. -/
def State.judgeWait (s : State) (c : CoreId) (slots : List (Fin 8 × Instr)) : State × Verdict :=
  match s.judge slots with
  | .wait .matrix _ => let t := s.matrixWait c; (t, t.judge slots)
  | v => (s, v)
/-- The words that a context fetches meet an error of instruction memory that cannot be corrected (R407); those of a replay record are not fetched. -/
def Core.fetchBad (k : Core) (x : CtxId) : Bool :=
  let w := (k.ctx x).pc.toNat / 4
  (k.ctx x).replay.isNone && !k.imemBad.isEmpty && (List.range (max 1 (k.bundleLen w))).any fun i => k.imemBad.contains ((w + i) % 65536)
/-- The transfer that has led to the PC misses a bundle, which the transferring bundle faults for, before a word is fetched (R59, R107). -/
def Core.missesTarget (k : Core) (x : CtxId) : Bool := match k.fetch x with | .error m => m.code == Code.badTarget | .ok _ => false
/-- One bundle of context `x` (R67); an error in the words that it fetches kills the context (R407). -/
def State.issueBundle (s : State) (c : CoreId) (x : CtxId) : State :=
  if (s.core c).fetchBad x && !(s.core c).missesTarget x then (s.endFreeze c).killTask c x (BitVec.ofNat 8 Code.memPoison) else
  match (s.core c).fetch x with
  | .error m => (s.endFreeze c).takeTrap ⟨0, c, x, 0, 0, BitVec.ofNat 8 m.code, m.next, m.pc, m.addr, 0⟩ []
  | .ok (cr, ws) =>
    let s := s.openBundle c x cr ws
    let sw := slotWords cr ws
    match s.bundleCheck cr sw with
    | some (code, mask) => ((s.endFreeze c).bundleFault mask code 0 0).closeBundle
    | none =>
      let slots := sw.filterMap fun w => w.get.map fun i => (slotNo w.kind, i)
      match s.judgeWait c slots with
      | (s, .fault mask f) => ((s.endFreeze c).bundleFault mask f.code.toNat f.addr f.info).closeBundle
      | (s, .block b t) => ((if (s.core c).freeze.isSome then t.endFreeze c else t).blockBundle c x b).closeBundle
      | (_, .wait f t) => (t.waitPeriod c f x).closeBundle
      | (s, .commit) => (((s.endFreeze c).runSlots slots).commitBundle).closeBundle
/-- The core's state of a switch, or of a restore: no context issues (R354, R367, R368, R373). -/
def Core.switching (k : Core) : Bool := k.pctlState == 2 || (k.pctlState == 1 && k.pctlForce) || k.restoring
/-- A cycle in which nothing issues: idle, not frozen (R19). -/
def State.idleCycle (s : State) (c : CoreId) : State := ((s.mapCore c fun k => { k.count 2 1 with running := none }).endCycle c).wake c
/-- A core that no freeze holds: due results land, the contexts whose conditions the events since its last cycle have resolved are ready (R17, R313), then a
bundle issues, or the core is idle. -/
def State.runCycle (s : State) (c : CoreId) : State :=
  let s := (s.landDue c).wake c
  let k := s.core c
  if k.record.isSome then s
  else
    match k.late with
    | some e => s.mapCore c fun k => k.frozenPeriod .reply e.ctx true e.acc.toList
    | none =>
      match k.choose with
      | none => s.idleCycle c
      | some x => (s.mapCore c fun k => k.enter x).issueBundle c x
/-- The freeze of a committed bundle or of an engine goes on: a value is awaited (R71, R221), or the send queue is still full (R235, assumption 80). -/
def State.stillFrozen (s : State) (c : CoreId) (f : Freeze) : Bool := f.accs.any (s.core c).awaits || (f.cause == .send && Config.freeChoice s.tick 981000)
/-- What BUNDLE_ISSUE does on a core: a period of its freeze, or a cycle. A freeze ends with the reply that it awaits: where a second result is late by then, a
new freeze begins, whose length the gauntlet counts afresh. That is the model's choice, as R71 does not say whether the two are one: assumption 99. -/
def State.coreStep (s : State) (c : CoreId) : State :=
  let k := s.core c
  if k.switching then s.mapCore c fun k => k.frozenPeriod .group 0 false []
  else if k.record.isSome then s.mapCore c fun k => k.frozenPeriod .record 0 false []
  else if k.slotWait then s.mapCore c fun k => k.frozenPeriod .slot 0 false []
  else
    match k.freeze with
    | some f =>
      if f.cause = .slot ∨ f.cause = .record ∨ f.cause = .group then (s.endFreeze c).runCycle c
      else if f.committed then
        (if s.stillFrozen c f then s.mapCore c fun k => k.frozenPeriod f.cause f.ctx true f.accs else (s.endFreeze c).runCycle c)
      else s.runCycle c
    | none => s.runCycle c

/-- BUNDLE_ISSUE (R67). A core identifier with cluster value 6 or 7 names no core (R11), and neither does the index of a core that is fused off (R10). -/
def execBundleIssue (c : CoreId) (s : State) : Out := if s.coreEnabled c then .next (s.coreStep c) else .fault .noSuchCore

end Sys2Proof.Machine
end

