-- ==== Sys2Proof/Machine/FrontEnd.lean ====
section
/-!
DEFINITION. Sys2Proof/Machine/FrontEnd.lean: the custom instructions of Patante's harts (R352). The rest of a hart's instruction set stands outside the
spec (assumption 16): a step runs one custom word on the hart that `State.hart` names.
-/
namespace Sys2Proof.Machine

/-- Causes written to mcause (R352). -/
def causeQidx : Nat := 24
def causeBfext : Nat := 25
def causeSigAlign : Nat := 26
def causeSigUnmapped : Nat := 27
def causeFormat : Nat := 28
def causeBusy : Nat := 29
def causeOrder : Nat := 30
/-- The cause of an illegal instruction: RISC-V's own (assumption 72). -/
def causeIllegal : Nat := 2

/-- The hart that runs. -/
def State.hartNow (s : State) : Hart := (s.die s.hart.1).harts[s.hart.2]
def State.mapHart (s : State) (f : Hart → Hart) : State :=
  s.mapDie s.hart.1 fun y => { y with harts := y.harts.set s.hart.2.val (f y.harts[s.hart.2]) s.hart.2.isLt }
/-- x0 reads as zero, and writes to it are discarded. -/
def Hart.get (h : Hart) (r : XReg) : Word := if r = 0 then 0 else h.x[r]
def Hart.put (h : Hart) (r : XReg) (v : Word) : Hart := if r = 0 then h else { h with x := h.x.set r.val v r.isLt }
/-- The instruction raises a cause: mcause, and no other effect (R352). -/
def State.cause (s : State) (c : Nat) : State := s.mapHart fun h => { h with mcause := BitVec.ofNat 64 c }

/-- What a `qfetch` of a queue latches; nothing is left of an earlier one of that queue. -/
def Hart.relatch (h : Hart) (q : Fin 64) (e : Option (Word32 × Word × Word)) : Hart :=
  let rest := h.latch.filter fun p => p.1 != q
  { h with latch := match e with | some e => (q, e) :: rest | none => rest }
/-- A launch entry that a hart has taken, with its tag and its number among the fetches of the die (R338); a graph entry names no launch record. -/
def Die.take (d : Die) (q : Fin 64) (w0 : Nat) (tag : Word) : Die :=
  if bits w0 61 2 = 0 then { d with taken := d.taken ++ [⟨d.nextId, q, bits w0 0 52, tag⟩], nextId := d.nextId + 1 } else d
/-- R352: the head entry is read and latched, or the queue parks. A disabled queue gives what an empty one gives (R331). Assumption 49. -/
def execQfetch (rd rs1 : XReg) (s : State) : Out :=
  let q := (s.hartNow.get rs1).toNat
  if h : q < 64 then
    let f : Fin 64 := ⟨q, h⟩
    let y := (s.die s.hart.1).queue f
    if !y.en ∨ y.park ∨ y.head = y.tail then .next (s.mapHart fun h => (h.put rd 0).relatch f none)
    else
      match s.headEntry y with
      | .error (r, pa) => .next ((s.park s.hart.1 f r pa).mapHart fun h => (h.put rd 1).relatch f none)
      | .ok (_, _, w0, w1) => .next (s.mapHart fun h => (h.put rd w0).relatch f (some (y.head, w0, w1)))
  else .next (s.cause causeQidx)
/-- R352: word 1 of the latched entry; the head moves on, and a launch entry awaits its dispatch (R334). -/
def execQfetchAdv (rd rs1 : XReg) (s : State) : Out :=
  let q := (s.hartNow.get rs1).toNat
  if h : q < 64 then
    let f : Fin 64 := ⟨q, h⟩
    match s.hartNow.latch.lookup f with
    | none => .next (s.cause causeOrder)
    | some (head, w0, w1) =>
      if head = ((s.die s.hart.1).queue f).head then
        .next (((s.mapQueue s.hart.1 f fun z => { z with head := z.head + 1 }).mapDie s.hart.1 fun y => y.take f w0.toNat w1).mapHart fun h => (h.put rd w1).relatch f none)
      else .next (s.cause causeOrder)
  else .next (s.cause causeQidx)
/-- R352. -/
def execBfext (rd rs1 rs2 : XReg) (s : State) : Out :=
  let h := s.hartNow
  let pos := bits (h.get rs2).toNat 0 6
  let len := bits (h.get rs2).toNat 8 7
  if 64 < pos + len then .next (s.cause causeBfext) else .next (s.mapHart fun h => h.put rd (BitVec.ofNat 64 (bits (h.get rs1).toNat pos len)))
/-- R352: the hart stalls until the word is large enough, or a QTAIL write or a retirement on the die. -/
def execSigwait (rd rs1 rs2 : XReg) (s : State) : Out :=
  let h := s.hartNow
  let pa := (h.get rs1).toNat
  if pa % 8 ≠ 0 then .next (s.cause causeSigAlign)
  else if !s.assigned pa then .next (s.cause causeSigUnmapped)
  else
    let v := s.memRead (s.localPa pa) 8
    if (h.get rs2).toNat ≤ v ∨ h.woken then .next (s.mapHart fun h => { h.put rd (BitVec.ofNat 64 v) with stall := none, woken := false })
    else .next (s.mapHart fun h => { h with stall := some (rd, rs1, rs2) })

/-- The operand of `dispatch` (R352). -/
structure DispatchArg where
  core : Nat
  first : Nat
  group : Nat
  hold : Bool
deriving DecidableEq, Repr
/-- Its fields; none when a bit outside them is set. -/
def dispatchArg (v : Nat) : Option DispatchArg := if bits v 10 6 = 0 ∧ bits v 48 15 = 0 then some ⟨bits v 0 8, bits v 8 2, bits v 16 32, bit v 63⟩ else none
/-- A launch takes its place among the launches of its die, in the order of their fetches (R338). -/
def Die.addInOrder (d : Die) (l : Launch) : Die := { d with launches := (d.launches.filter fun m => decide (m.id < l.id)) ++ l :: d.launches.filter fun m => !decide (m.id < l.id) }
/-- The launch of a record that a hart dispatches: the one the die holds, or a new one with the queue, the tag and the place of the oldest entry
for that record which a hart of the die has taken (R334, R338); with none, queue 0 and tag 0: assumption 49. -/
def State.dispatchLaunch (s : State) (pa : Nat) : State × Launch :=
  let d := s.hart.1
  match (s.die d).launches.find? fun l => l.recPa == pa with
  | some l => (s, l)
  | none =>
    let e := (s.die d).taken.find? fun e => e.recPa == pa
    let l := s.readRecord ((e.map (·.id)).getD (s.die d).nextId) ((e.map (·.queue)).getD 0) none pa ((e.map (·.tag)).getD 0) none
    (s.mapDie d fun y => match e with
      | some e => { y.addInOrder l with taken := y.taken.erase e }
      | none => { y.addInOrder l with nextId := y.nextId + 1 }, l)
/-- A group is put on the contexts that a `dispatch` names, and counts for its queue as any placement does (R338); with hold it waits, otherwise every held
group and its own are released (R32, R352). One group of a launch placed whole may so be released apart from the others, which R15 does not foresee:
assumption 73. -/
def State.dispatchGroup (s : State) (l : Launch) (i : Image) (a : DispatchArg) (c : CoreId) (xs : List CtxId) : State :=
  let d := s.hart.1
  let s := if (s.die d).placed.any fun m => m.id == l.id then s.setUpAgain d l i else s.setUp d l i
  let s := (s.mapLaunch d l.id fun _ => l.placedGroup a.group).placeGroup l i false c xs a.group (l.tasksOf a.group)
  let own (p : CoreId × CtxId) : Bool := p.1 == c && xs.contains p.2
  let s := (s.mapQueue d l.queue fun y => { y with boost := 0 }).mapDie d fun y => { y with lastQueue := l.queue, batch := y.batch.filter fun p => !own p, heldBatch := y.heldBatch ++ xs.map fun x => (c, x) }
  if a.hold then s else (s.releaseBatch d (s.die d).heldBatch).mapDie d fun y => { y with heldBatch := [] }
/-- R352: one core group of a record is placed; rd is 0, or the code of R335 with which the launch ended. The group goes to the contexts that the operand names,
also where R14 would give others: assumption 73. A core that has saved a group of the launch takes no other before that one has retired (R14). -/
def execDispatch (rd rs1 rs2 : XReg) (s : State) : Out :=
  let d := s.hart.1
  let pa := (s.hartNow.get rs1).toNat
  match dispatchArg (s.hartNow.get rs2).toNat with
  | none => .next (s.cause causeFormat)
  | some a =>
    if pa % 256 ≠ 0 ∨ (s.readFault pa 256).isSome then .next (s.cause causeFormat)
    else
      let (t, l) := s.dispatchLaunch pa
      let (codes, m) := if l.checked then ([], l) else t.launchChecks d l
      let fails (codes : List Nat) : Out :=
        let pickd := codes.getD ((Config.freeBits 64 s.tick 880000).toNat % codes.length) 0x1C
        .next ((t.failLaunch d l pickd).mapHart fun h => h.put rd (BitVec.ofNat 64 pickd))
      if !codes.isEmpty then fails codes
      else
        let late := if l.checked then [] else t.spaceCodes d m ++ t.lateCodes d l
        let c := coreOn d a.core
        let size := m.groupSize a.group
        let xs := (ctxIds.filter fun x => decide (a.first ≤ x.val ∧ x.val < a.first + size))
        if m.groups ≤ a.group ∨ m.isPlaced a.group ∨ !(t.namedCores d m.cores).contains c ∨ xs.length ≠ size ∨
            (m.whole ∧ (t.namedCores d m.cores)[a.group]? ≠ some c) then .next (s.cause causeFormat)
        else if !(xs.all fun x => (t.core c).isVacant x) ∨ (t.savedGroup c (some m.id)).isSome ∨ !t.fits c (m.need a.group) 0 ∨
            (!((t.die d).placed.any fun z => z.id == m.id) ∧ !t.boardsFree d m) then .next (s.cause causeBusy)
        else if !late.isEmpty then fails late
        else
          match (if t.recordFits m then t.readImage m.image else none) with
          | none => .next (s.cause causeFormat)
          | some i => .next ((t.dispatchGroup m i a c xs).mapHart fun h => h.put rd 0)

end Sys2Proof.Machine
end

