-- ==== Sys2Proof/Machine/Replies.lean ====
section
/-!
DEFINITION. Sys2Proof/Machine/Replies.lean: the acknowledgements of stores and of what engines and guard commits send to other packages (R220, R226, R231,
R246), and negative replies (R380).
-/
namespace Sys2Proof.Machine

/-- A write that other packages acknowledge, by its number. -/
def Core.sentAt (k : Core) (id : Nat) : Option Sent := k.sent.find? fun w => w.id == id
def Core.dropSent (k : Core) (id : Nat) : Core := { k with sent := k.sent.filter fun w => w.id != id }
/-- The last acknowledgement of a command's sector or rank, or of a guard commit, has come. -/
def State.sentOver (s : State) (c : CoreId) (w : Sent) : State :=
  match w.cmd with
  | none => (s.commitDone c w.ctx).wake c
  | some (tag, place) =>
    if (s.core c).awaitsAck tag then s
    else match (s.core c).command tag with
      | none => s
      | some q => if q.eng = .xpose then s.rankDone c q place else s.sectorDone c tag
/-- An engine's write to another package is acknowledged; a frozen core's engine takes it when it goes on (R6). -/
def State.sentAck (s : State) (c : CoreId) (w : Sent) : State :=
  if w.cmd.isSome && (s.core c).halted then s else (s.mapCore c fun k => k.dropSent w.id).sentOver c w
/-- STORE_ACK: a store that has been performed at its home is acknowledged (R220). -/
def execStoreAck (c : CoreId) (k : Nat) (s : State) : Out :=
  match (s.core c).access k, (s.core c).sentAt k with
  | some a, _ => if isStore a.kind && a.performed then .next ((s.mapCore c fun y => y.dropAccess k).wake c) else .next s
  | none, some w => .next (s.sentAck c w)
  | none, none => .next s

/-- A negative reply to a remote access is counted in FSTAT.lost, and the fabric interrupt raised (R380). -/
def State.countLost (s : State) (c : CoreId) : State := (s.mapPkg fun p => { p with lost := p.lost + 1 }).interrupt c.die 3
/-- A write of an engine to another package fails with a code: its command ends (R250, R260); a frozen core's engine takes it when it goes on (R6, R252). -/
def State.sentFails (s : State) (c : CoreId) (tag : Word32) (code : Nat) : State :=
  if (s.core c).halted then s
  else
  match (s.core c).command tag with
  | none => s
  | some q => if q.eng = .xpose then s.failXpose c q code else s.failCopy c q code
/-- A negative reply (R380): a store is lost, a load or an atomic returns all-ones bytes, and a drained store of a guard commit counts as acknowledged; the
command of an engine's write ends with `code`. Assumption 71. -/
def State.negative (s : State) (c : CoreId) (k code : Nat) : State :=
  match (s.core c).access k, (s.core c).sentAt k with
  | some a, _ =>
    if !a.performed || regionClass a.pa != some .remote then s
    else
      let s := s.countLost c
      if isStore a.kind then (s.mapCore c fun y => y.dropAccess k).wake c else s.reply c a (a.value (BitVec.allOnes 64))
  | none, some w =>
    match w.cmd with
    | none => ((s.countLost c).mapCore c fun y => y.dropSent k).sentOver c w
    | some (tag, _) => s.sentFails c tag code
  | none, none => s
/-- NEGATIVE_REPLY (R380): of a router that finds no route, or of a target that has nothing there. -/
def execNegativeReply (c : CoreId) (k : Nat) (s : State) : Out := .next (s.negative c k (if Config.freeChoice s.tick 895000 then errUnmapped else errPeerAbsent))
/-- ROUTE_TIMEOUT: no route within 10 µs (R380). -/
def execRouteTimeout (c : CoreId) (k : Nat) (s : State) : Out := .next (s.negative c k errPeerAbsent)
/-- REPLY_TIMEOUT: no reply within 100 µs (R380). -/
def execReplyTimeout (c : CoreId) (k : Nat) (s : State) : Out := .next (s.negative c k errPeerAbsent)

end Sys2Proof.Machine
end

