-- ==== Sys2Proof/Machine/Dispatch.lean ====
section
/-!
DEFINITION. Sys2Proof/Machine/Dispatch.lean: the meaning of every instruction and machine event: one arm per constructor of Instr.
-/
namespace Sys2Proof.Machine

def exec (i : Instr) (s : State) : Host.Outcome State Fault Refusal :=
  match i with
  | .add g d a b => Sys2Proof.Machine.execAdd g d a b s
  | .sub g d a b => Sys2Proof.Machine.execSub g d a b s
  | .mul g d a b => Sys2Proof.Machine.execMul g d a b s
  | .mulh g d a b => Sys2Proof.Machine.execMulh g d a b s
  | .mulhN g d a b => Sys2Proof.Machine.execMulhN g d a b s
  | .div g d a b => Sys2Proof.Machine.execDiv g d a b s
  | .divN g d a b => Sys2Proof.Machine.execDivN g d a b s
  | .rem g d a b => Sys2Proof.Machine.execRem g d a b s
  | .remN g d a b => Sys2Proof.Machine.execRemN g d a b s
  | .and g d a b => Sys2Proof.Machine.execAnd g d a b s
  | .or g d a b => Sys2Proof.Machine.execOr g d a b s
  | .xor g d a b => Sys2Proof.Machine.execXor g d a b s
  | .andn g d a b => Sys2Proof.Machine.execAndn g d a b s
  | .shl g d a b => Sys2Proof.Machine.execShl g d a b s
  | .shr g d a b => Sys2Proof.Machine.execShr g d a b s
  | .sra g d a b => Sys2Proof.Machine.execSra g d a b s
  | .rol g d a b => Sys2Proof.Machine.execRol g d a b s
  | .ror g d a b => Sys2Proof.Machine.execRor g d a b s
  | .clz g d b => Sys2Proof.Machine.execClz g d b s
  | .ctz g d b => Sys2Proof.Machine.execCtz g d b s
  | .popc g d b => Sys2Proof.Machine.execPopc g d b s
  | .min g d a b => Sys2Proof.Machine.execMin g d a b s
  | .max g d a b => Sys2Proof.Machine.execMax g d a b s
  | .minN g d a b => Sys2Proof.Machine.execMinN g d a b s
  | .maxN g d a b => Sys2Proof.Machine.execMaxN g d a b s
  | .sext8 g d b => Sys2Proof.Machine.execSext8 g d b s
  | .sext16 g d b => Sys2Proof.Machine.execSext16 g d b s
  | .sext32 g d b => Sys2Proof.Machine.execSext32 g d b s
  | .zext8 g d b => Sys2Proof.Machine.execZext8 g d b s
  | .zext16 g d b => Sys2Proof.Machine.execZext16 g d b s
  | .zext32 g d b => Sys2Proof.Machine.execZext32 g d b s
  | .bfx g d a b => Sys2Proof.Machine.execBfx g d a b s
  | .bfxN g d a b => Sys2Proof.Machine.execBfxN g d a b s
  | .bfi g d a b => Sys2Proof.Machine.execBfi g d a b s
  | .sel g d a b => Sys2Proof.Machine.execSel g d a b s
  | .lea1 g d a b => Sys2Proof.Machine.execLea1 g d a b s
  | .lea2 g d a b => Sys2Proof.Machine.execLea2 g d a b s
  | .lea4 g d a b => Sys2Proof.Machine.execLea4 g d a b s
  | .lea8 g d a b => Sys2Proof.Machine.execLea8 g d a b s
  | .addS g d a b => Sys2Proof.Machine.execAddS g d a b s
  | .subS g d a b => Sys2Proof.Machine.execSubS g d a b s
  | .addSN g d a b => Sys2Proof.Machine.execAddSN g d a b s
  | .subSN g d a b => Sys2Proof.Machine.execSubSN g d a b s
  | .cmpEq g d a b => Sys2Proof.Machine.execCmpEq g d a b s
  | .cmpNe g d a b => Sys2Proof.Machine.execCmpNe g d a b s
  | .cmpLt g d a b => Sys2Proof.Machine.execCmpLt g d a b s
  | .cmpLe g d a b => Sys2Proof.Machine.execCmpLe g d a b s
  | .cmpLtN g d a b => Sys2Proof.Machine.execCmpLtN g d a b s
  | .cmpLeN g d a b => Sys2Proof.Machine.execCmpLeN g d a b s
  | .pand g d a b => Sys2Proof.Machine.execPand g d a b s
  | .por g d a b => Sys2Proof.Machine.execPor g d a b s
  | .pxor g d a b => Sys2Proof.Machine.execPxor g d a b s
  | .pandn g d a b => Sys2Proof.Machine.execPandn g d a b s
  | .pfrom g d b => Sys2Proof.Machine.execPfrom g d b s
  | .pto g d a => Sys2Proof.Machine.execPto g d a s
  | .mov g d b => Sys2Proof.Machine.execMov g d b s
  | .liImm g d imm => Sys2Proof.Machine.execLiImm g d imm s
  | .liBrim g d b => Sys2Proof.Machine.execLiBrim g d b s
  | .rdsp g d x => Sys2Proof.Machine.execRdsp g d x s
  | .wrsp g x b => Sys2Proof.Machine.execWrsp g x b s
  | .br g off => Sys2Proof.Machine.execBr g off s
  | .brcNzOffset g a off => Sys2Proof.Machine.execBrcNzOffset g a off s
  | .brcNzAbs g a b => Sys2Proof.Machine.execBrcNzAbs g a b s
  | .brcZOffset g a off => Sys2Proof.Machine.execBrcZOffset g a off s
  | .brcZAbs g a b => Sys2Proof.Machine.execBrcZAbs g a b s
  | .jr g a => Sys2Proof.Machine.execJr g a s
  | .call g off => Sys2Proof.Machine.execCall g off s
  | .ret g => Sys2Proof.Machine.execRet g s
  | .loop g off b => Sys2Proof.Machine.execLoop g off b s
  | .loopClear g => Sys2Proof.Machine.execLoopClear g s
  | .done g => Sys2Proof.Machine.execDone g s
  | .trig g => Sys2Proof.Machine.execTrig g s
  | .trap g code => Sys2Proof.Machine.execTrap g code s
  | .sys g code => Sys2Proof.Machine.execSys g code s
  | .ldI8 g d a b => Sys2Proof.Machine.execLdI8 g d a b s
  | .ldN8 g d a b => Sys2Proof.Machine.execLdN8 g d a b s
  | .ldI16 g d a b => Sys2Proof.Machine.execLdI16 g d a b s
  | .ldN16 g d a b => Sys2Proof.Machine.execLdN16 g d a b s
  | .ldI32 g d a b => Sys2Proof.Machine.execLdI32 g d a b s
  | .ldN32 g d a b => Sys2Proof.Machine.execLdN32 g d a b s
  | .ld64 g d a b => Sys2Proof.Machine.execLd64 g d a b s
  | .st8 g d a b => Sys2Proof.Machine.execSt8 g d a b s
  | .st16 g d a b => Sys2Proof.Machine.execSt16 g d a b s
  | .st32 g d a b => Sys2Proof.Machine.execSt32 g d a b s
  | .st64 g d a b => Sys2Proof.Machine.execSt64 g d a b s
  | .ldv g d a b => Sys2Proof.Machine.execLdv g d a b s
  | .stv g d a b => Sys2Proof.Machine.execStv g d a b s
  | .ldg g d a b => Sys2Proof.Machine.execLdg g d a b s
  | .stg g d a b => Sys2Proof.Machine.execStg g d a b s
  | .scld g d a b => Sys2Proof.Machine.execScld g d a b s
  | .ldxI8 g d a b => Sys2Proof.Machine.execLdxI8 g d a b s
  | .ldxN8 g d a b => Sys2Proof.Machine.execLdxN8 g d a b s
  | .ldxI16 g d a b => Sys2Proof.Machine.execLdxI16 g d a b s
  | .ldxN16 g d a b => Sys2Proof.Machine.execLdxN16 g d a b s
  | .ldxI32 g d a b => Sys2Proof.Machine.execLdxI32 g d a b s
  | .ldxN32 g d a b => Sys2Proof.Machine.execLdxN32 g d a b s
  | .ldx64 g d a b => Sys2Proof.Machine.execLdx64 g d a b s
  | .stx8 g d a b => Sys2Proof.Machine.execStx8 g d a b s
  | .stx16 g d a b => Sys2Proof.Machine.execStx16 g d a b s
  | .stx32 g d a b => Sys2Proof.Machine.execStx32 g d a b s
  | .stx64 g d a b => Sys2Proof.Machine.execStx64 g d a b s
  | .ldxAcq32 g d a sc => Sys2Proof.Machine.execLdxAcq32 g d a sc s
  | .ldxAcq64 g d a sc => Sys2Proof.Machine.execLdxAcq64 g d a sc s
  | .stxRel32 g d a sc => Sys2Proof.Machine.execStxRel32 g d a sc s
  | .stxRel64 g d a sc => Sys2Proof.Machine.execStxRel64 g d a sc s
  | .amoAdd32 g d a b => Sys2Proof.Machine.execAmoAdd32 g d a b s
  | .amoAdd64 g d a b => Sys2Proof.Machine.execAmoAdd64 g d a b s
  | .amoMin32 g d a b => Sys2Proof.Machine.execAmoMin32 g d a b s
  | .amoMin64 g d a b => Sys2Proof.Machine.execAmoMin64 g d a b s
  | .amoMax32 g d a b => Sys2Proof.Machine.execAmoMax32 g d a b s
  | .amoMax64 g d a b => Sys2Proof.Machine.execAmoMax64 g d a b s
  | .amoAnd64 g d a b => Sys2Proof.Machine.execAmoAnd64 g d a b s
  | .amoOr64 g d a b => Sys2Proof.Machine.execAmoOr64 g d a b s
  | .amoXor64 g d a b => Sys2Proof.Machine.execAmoXor64 g d a b s
  | .amoSwap32 g d a b => Sys2Proof.Machine.execAmoSwap32 g d a b s
  | .amoSwap64 g d a b => Sys2Proof.Machine.execAmoSwap64 g d a b s
  | .amoCas64 g d a b => Sys2Proof.Machine.execAmoCas64 g d a b s
  | .amoFaddF32 g d a b => Sys2Proof.Machine.execAmoFaddF32 g d a b s
  | .amoFaddF64 g d a b => Sys2Proof.Machine.execAmoFaddF64 g d a b s
  | .nbopAddF32 g d a b => Sys2Proof.Machine.execNbopAddF32 g d a b s
  | .nbopAddF64 g d a b => Sys2Proof.Machine.execNbopAddF64 g d a b s
  | .nbopAddI32 g d a b => Sys2Proof.Machine.execNbopAddI32 g d a b s
  | .nbopAddI64 g d a b => Sys2Proof.Machine.execNbopAddI64 g d a b s
  | .nbopMaxF32 g d a b => Sys2Proof.Machine.execNbopMaxF32 g d a b s
  | .nbopMinF32 g d a b => Sys2Proof.Machine.execNbopMinF32 g d a b s
  | .nbopScaleF32 g d a b => Sys2Proof.Machine.execNbopScaleF32 g d a b s
  | .nbopScaleF64 g d a b => Sys2Proof.Machine.execNbopScaleF64 g d a b s
  | .fence g sc => Sys2Proof.Machine.execFence g sc s
  | .xfence g p q => Sys2Proof.Machine.execXfence g p q s
  | .fenceIo g => Sys2Proof.Machine.execFenceIo g s
  | .vadd g f d a b => Sys2Proof.Machine.execVadd g f d a b s
  | .vsub g f d a b => Sys2Proof.Machine.execVsub g f d a b s
  | .vmul g f d a b => Sys2Proof.Machine.execVmul g f d a b s
  | .vfma g f d a b => Sys2Proof.Machine.execVfma g f d a b s
  | .vcmulC64 g d a b => Sys2Proof.Machine.execVcmulC64 g d a b s
  | .vcmulC32 g d a b => Sys2Proof.Machine.execVcmulC32 g d a b s
  | .vlrec g single d a b => Sys2Proof.Machine.execVlrec g single d a b s
  | .vmin g f d a b => Sys2Proof.Machine.execVmin g f d a b s
  | .vmax g f d a b => Sys2Proof.Machine.execVmax g f d a b s
  | .vaddS g f d a b => Sys2Proof.Machine.execVaddS g f d a b s
  | .vsubS g f d a b => Sys2Proof.Machine.execVsubS g f d a b s
  | .vcmpEq g f d a b => Sys2Proof.Machine.execVcmpEq g f d a b s
  | .vcmpLt g f d a b => Sys2Proof.Machine.execVcmpLt g f d a b s
  | .vcmpLe g f d a b => Sys2Proof.Machine.execVcmpLe g f d a b s
  | .vcvt g r d a src dst => Sys2Proof.Machine.execVcvt g r d a src dst s
  | .vand g d a b => Sys2Proof.Machine.execVand g d a b s
  | .vor g d a b => Sys2Proof.Machine.execVor g d a b s
  | .vxor g d a b => Sys2Proof.Machine.execVxor g d a b s
  | .vandn g d a b => Sys2Proof.Machine.execVandn g d a b s
  | .vsel g d a b => Sys2Proof.Machine.execVsel g d a b s
  | .vshuf g d a b => Sys2Proof.Machine.execVshuf g d a b s
  | .vbcast g wide d a => Sys2Proof.Machine.execVbcast g wide d a s
  | .vred g d a src op => Sys2Proof.Machine.execVred g d a src op s
  | .vshl g wide d a b => Sys2Proof.Machine.execVshl g wide d a b s
  | .vshr g wide d a b => Sys2Proof.Machine.execVshr g wide d a b s
  | .vsra g wide d a b => Sys2Proof.Machine.execVsra g wide d a b s
  | .vpack g d a src t => Sys2Proof.Machine.execVpack g d a src t s
  | .vunpack g d a dst t => Sys2Proof.Machine.execVunpack g d a dst t s
  | .vrcp g wide d a => Sys2Proof.Machine.execVrcp g wide d a s
  | .vrsqrt g wide d a => Sys2Proof.Machine.execVrsqrt g wide d a s
  | .vexp2 g wide d a => Sys2Proof.Machine.execVexp2 g wide d a s
  | .vlog2 g wide d a => Sys2Proof.Machine.execVlog2 g wide d a s
  | .vsincos g wide d a => Sys2Proof.Machine.execVsincos g wide d a s
  | .vtanh g wide d a => Sys2Proof.Machine.execVtanh g wide d a s
  | .bnet g c d a b => Sys2Proof.Machine.execBnet g c d a b s
  | .mma g f acc a b sc z => Sys2Proof.Machine.execMma g f acc a b sc z s
  | .mmaH g f acc a b sc z => Sys2Proof.Machine.execMmaH g f acc a b sc z s
  | .mmaSd g half acc a b z => Sys2Proof.Machine.execMmaSd g half acc a b z s
  | .sdscan g acc a b half => Sys2Proof.Machine.execSdscan g acc a b half s
  | .sdgen g acc a b basis => Sys2Proof.Machine.execSdgen g acc a b basis s
  | .mzero g acc => Sys2Proof.Machine.execMzero g acc s
  | .mld g acc a f => Sys2Proof.Machine.execMld g acc a f s
  | .mst g acc a f => Sys2Proof.Machine.execMst g acc a f s
  | .xftGo g ib o => Sys2Proof.Machine.execXftGo g ib o s
  | .cpy g d a b => Sys2Proof.Machine.execCpy g d a b s
  | .cpyh g d a b => Sys2Proof.Machine.execCpyh g d a b s
  | .xpose g => Sys2Proof.Machine.execXpose g s
  | .ewr g e w b => Sys2Proof.Machine.execEwr g e w b s
  | .ewrBlk g e w a b => Sys2Proof.Machine.execEwrBlk g e w a b s
  | .ego g e => Sys2Proof.Machine.execEgo g e s
  | .erd g d e w shadow => Sys2Proof.Machine.execErd g d e w shadow s
  | .tbinit g a b => Sys2Proof.Machine.execTbinit g a b s
  | .tbexpect g a b => Sys2Proof.Machine.execTbexpect g a b s
  | .tbarrive g a b => Sys2Proof.Machine.execTbarrive g a b s
  | .tbarriveG g a b => Sys2Proof.Machine.execTbarriveG g a b s
  | .tbwait g a b => Sys2Proof.Machine.execTbwait g a b s
  | .tbtest g d a => Sys2Proof.Machine.execTbtest g d a s
  | .sbset g b => Sys2Proof.Machine.execSbset g b s
  | .sbarm g a b => Sys2Proof.Machine.execSbarm g a b s
  | .dbar g b => Sys2Proof.Machine.execDbar g b s
  | .chsend g x b => Sys2Proof.Machine.execChsend g x b s
  | .chrecv g x b => Sys2Proof.Machine.execChrecv g x b s
  | .chtest g d b => Sys2Proof.Machine.execChtest g d b s
  | .grdCheck g b => Sys2Proof.Machine.execGrdCheck g b s
  | .fmtset g b => Sys2Proof.Machine.execFmtset g b s
  | .rsave g a b => Sys2Proof.Machine.execRsave g a b s
  | .rload g a b => Sys2Proof.Machine.execRload g a b s
  | .mcred g d a b => Sys2Proof.Machine.execMcred g d a b s
  | .mcst g d a b => Sys2Proof.Machine.execMcst g d a b s
  | .bnload g c a b => Sys2Proof.Machine.execBnload g c a b s
  | .sig g a b => Sys2Proof.Machine.execSig g a b s
  | .sigMax g a b => Sys2Proof.Machine.execSigMax g a b s
  | .wsig g a b => Sys2Proof.Machine.execWsig g a b s
  | .qfetch rd rs1 => Sys2Proof.Machine.execQfetch rd rs1 s
  | .qfetchAdv rd rs1 => Sys2Proof.Machine.execQfetchAdv rd rs1 s
  | .bfext rd rs1 rs2 => Sys2Proof.Machine.execBfext rd rs1 rs2 s
  | .sigwait rd rs1 rs2 => Sys2Proof.Machine.execSigwait rd rs1 rs2 s
  | .dispatch rd rs1 rs2 => Sys2Proof.Machine.execDispatch rd rs1 rs2 s
  | .bundleIssue c => Sys2Proof.Machine.execBundleIssue c s
  | .matrixOpComplete c => Sys2Proof.Machine.execMatrixOpComplete c s
  | .contextFree c x => Sys2Proof.Machine.execContextFree c x s
  | .ptsTick c x => Sys2Proof.Machine.execPtsTick c x s
  | .randomRefill c => Sys2Proof.Machine.execRandomRefill c s
  | .lookaheadStaging c w => Sys2Proof.Machine.execLookaheadStaging c w s
  | .stagingComplete c b => Sys2Proof.Machine.execStagingComplete c b s
  | .homeBankAccess c k copy evict => Sys2Proof.Machine.execHomeBankAccess c k copy evict s
  | .globalReply c k v err => Sys2Proof.Machine.execGlobalReply c k v err s
  | .storeAck c k => Sys2Proof.Machine.execStoreAck c k s
  | .guardCommitComplete c x => Sys2Proof.Machine.execGuardCommitComplete c x s
  | .copySectorPerformed c tag => Sys2Proof.Machine.execCopySectorPerformed c tag s
  | .helperRowEnd c tag => Sys2Proof.Machine.execHelperRowEnd c tag s
  | .xposeRankServed x tag q gone => Sys2Proof.Machine.execXposeRankServed x tag q gone s
  | .xposeSendComplete c tag => Sys2Proof.Machine.execXposeSendComplete c tag s
  | .xftTransformDone c => Sys2Proof.Machine.execXftTransformDone c s
  | .xftComplete c => Sys2Proof.Machine.execXftComplete c s
  | .channelDelivery d l ch => Sys2Proof.Machine.execChannelDelivery d l ch s
  | .channelCreditReturn d l ch => Sys2Proof.Machine.execChannelCreditReturn d l ch s
  | .barrierUpdate k => Sys2Proof.Machine.execBarrierUpdate k s
  | .domainBarrierComplete d l lev idx => Sys2Proof.Machine.execDomainBarrierComplete d l lev idx s
  | .placementDecision d pick => Sys2Proof.Machine.execPlacementDecision d pick s
  | .batchRelease d => Sys2Proof.Machine.execBatchRelease d s
  | .queueFetch d q => Sys2Proof.Machine.execQueueFetch d q s
  | .nodeStart d gr n => Sys2Proof.Machine.execNodeStart d gr n s
  | .save c => Sys2Proof.Machine.execSave c s
  | .saveComplete c => Sys2Proof.Machine.execSaveComplete c s
  | .invalidationComplete d => Sys2Proof.Machine.execInvalidationComplete d s
  | .deactivateComplete d => Sys2Proof.Machine.execDeactivateComplete d s
  | .pageWalk d asid va => Sys2Proof.Machine.execPageWalk d asid va s
  | .routerContribution id rank row gone => Sys2Proof.Machine.execRouterContribution id rank row gone s
  | .memberDelivery x q gone => Sys2Proof.Machine.execMemberDelivery x q gone s
  | .mcstDelivery x q gone => Sys2Proof.Machine.execMcstDelivery x q gone s
  | .resultLanding c k => Sys2Proof.Machine.execResultLanding c k s
  | .gauntletTimeout c => Sys2Proof.Machine.execGauntletTimeout c s
  | .handlerTimeout c => Sys2Proof.Machine.execHandlerTimeout c s
  | .forcedSwitchTimeout c => Sys2Proof.Machine.execForcedSwitchTimeout c s
  | .agingInterval d q => Sys2Proof.Machine.execAgingInterval d q s
  | .remoteAccessArrival r => Sys2Proof.Machine.execRemoteAccessArrival r s
  | .negativeReply c k => Sys2Proof.Machine.execNegativeReply c k s
  | .routeTimeout c k => Sys2Proof.Machine.execRouteTimeout c k s
  | .replyTimeout c k => Sys2Proof.Machine.execReplyTimeout c k s
  | .linkRetrain l => Sys2Proof.Machine.execLinkRetrain l s
  | .opticalLinkChange p up => Sys2Proof.Machine.execOpticalLinkChange p up s
  | .hostLinkChange p width rate => Sys2Proof.Machine.execHostLinkChange p width rate s
  | .hotReset p => Sys2Proof.Machine.execHotReset p s
  | .resetPin => Sys2Proof.Machine.execResetPin s
  | .powerGood b => Sys2Proof.Machine.execPowerGood b s
  | .powerDown => Sys2Proof.Machine.execPowerDown s
  | .currentWindow d f avg => Sys2Proof.Machine.execCurrentWindow d f avg s
  | .visorSample ft hs => Sys2Proof.Machine.execVisorSample ft hs s
  | .visorFlush => Sys2Proof.Machine.execVisorFlush s
  | .patrolScrub a bad => Sys2Proof.Machine.execPatrolScrub a bad s
  | .inboundWrite p off bytes poison => Sys2Proof.Machine.execInboundWrite p off bytes poison s
  | .inboundRead p off len => Sys2Proof.Machine.execInboundRead p off len s
  | .inboundAtomicop p op wide off x y => Sys2Proof.Machine.execInboundAtomicop p op wide off x y s
  | .spdmMeasurement nonce => Sys2Proof.Machine.execSpdmMeasurement nonce s
  | .enqueue d q tail => Sys2Proof.Machine.execEnqueue d q tail s
  | .queueResume d q => Sys2Proof.Machine.execQueueResume d q s
  | .invalidation d all glob asid => Sys2Proof.Machine.execInvalidation d all glob asid s
  | .activate d ib => Sys2Proof.Machine.execActivate d ib s
  | .deactivate d ib => Sys2Proof.Machine.execDeactivate d ib s
  | .peakReset d f => Sys2Proof.Machine.execPeakReset d f s
  | .kreqLive d core x grp => Sys2Proof.Machine.execKreqLive d core x grp s
  | .kreqImage d core x grp area => Sys2Proof.Machine.execKreqImage d core x grp area s
  | .pctlReq c area => Sys2Proof.Machine.execPctlReq c area s
  | .pctlForce c area => Sys2Proof.Machine.execPctlForce c area s
  | .resume c => Sys2Proof.Machine.execResume c s
  | .advance c => Sys2Proof.Machine.execAdvance c s
  | .kill c kcode => Sys2Proof.Machine.execKill c kcode s
  | .switch c => Sys2Proof.Machine.execSwitch c s
  | .replay c tag => Sys2Proof.Machine.execReplay c tag s
  | .abandon c tag => Sys2Proof.Machine.execAbandon c tag s
  | .tqheadWrite cl v => Sys2Proof.Machine.execTqheadWrite cl v s
  | .windowWrite c off v => Sys2Proof.Machine.execWindowWrite c off v s
  | .visor => Sys2Proof.Machine.execVisor s
  | .attest => Sys2Proof.Machine.execAttest s
  | .stage => Sys2Proof.Machine.execStage s
  | .commit => Sys2Proof.Machine.execCommit s
  | .handlerCommitPoint => Sys2Proof.Machine.execHandlerCommitPoint s
  | .routine => Sys2Proof.Machine.execRoutine s
  | .keyload => Sys2Proof.Machine.execKeyload s
  | .keyclear => Sys2Proof.Machine.execKeyclear s
  | .keyexch => Sys2Proof.Machine.execKeyexch s
  | .reset => Sys2Proof.Machine.execReset s
  | .mailboxOther cmd => Sys2Proof.Machine.execMailboxOther cmd s
  | .registerWrite d off v => Sys2Proof.Machine.execRegisterWrite d off v s
  | .supplyDroop d f mv => Sys2Proof.Machine.execSupplyDroop d f mv s
  | .powerLoss => Sys2Proof.Machine.execPowerLoss s
  | .helperFault c tag => Sys2Proof.Machine.execHelperFault c tag s
  | .contributionRead d r => Sys2Proof.Machine.execContributionRead d r s

end Sys2Proof.Machine
end

