-- ==== Sys2Proof/Machine/Schedule.lean ====
section
/-!
DEFINITION. Sys2Proof/Machine/Schedule.lean: which step comes next (assumption 4). The spec gives the machine many agents and no order among them, so the
order is data of the state: `agenda` lists steps to come, from inside or outside the machine; with none listed, a word that a Patante hart is to run
comes next, then the work that is due inside the machine, one piece at a time, then the next cycle of the core whose turn it is. And how a word is
placed to be run (assumption 5).
-/
namespace Sys2Proof.Machine

/-! ### Work that is due -/

/-- The first of some choices that is one. -/
def firstSome {α : Type} : List (Option α) → Option α
  | [] => none
  | some a :: _ => some a
  | none :: t => firstSome t

/-- A global access of a core: it is performed, then answered; only a peer or another package answers for what left this package. -/
def State.dueAccess (s : State) (c : CoreId) (a : Access) : Option Instr :=
  if !a.performed then (if (s.core c).waitsFor s a then none else some (.homeBankAccess c a.id false none))
  else
    let inside := match regionClass a.pa with
      | some .peer => a.cls == .onchip
      | some .remote => false
      | _ => true
    match a.kind with
    | .store => if inside || regionClass a.pa == some .peer then some (.storeAck c a.id) else none
    | .nbop _ => none
    | _ => if inside then some (.globalReply c a.id 0 false) else none
/-- A command of the copy queue (R246, R254, R258): not on a frozen core, nor while another package is to acknowledge what it wrote. -/
def Core.dueCommand (k : Core) (c : CoreId) (q : Command) : Option Instr :=
  if q.stopped || k.halted || k.awaitsAck q.tag then none
  else if q.eng = .xpose then
    match (List.range (xparam q.set).p).find? fun r => !q.served.contains r with
    | some r => some (.xposeRankServed (.own c) q.tag r 0)
    | none => some (.xposeSendComplete c q.tag)
  else
    let t := templateOf q.set
    let more := q.help && decide (q.row < t.nr)
    if t.total q.help q.n = 0 then (if more then (if k.helperTurn = some q.tag then some (.helperRowEnd c q.tag) else none) else some (.copySectorPerformed c q.tag))
    else if q.rowReady then some (.copySectorPerformed c q.tag)
    else if more && k.helperTurn == some q.tag then some (.helperRowEnd c q.tag)
    else none
/-- A save that may begin, go on or be completed (R367 to R369): results land early, and the units end. -/
def State.dueSave (s : State) (c : CoreId) : Option Instr :=
  let k := s.core c
  if k.pctlState = 1 then (if k.maySave then some (.save c) else none)
  else if k.pctlState ≠ 2 then none
  else if s.drained c then some (.saveComplete c)
  else
    match k.inflight.findIdx? fun e => !e.landed && e.val.isSome with
    | some i => if k.record.isSome then none else some (.resultLanding c i)
    | none => if k.halted then none else if k.mtx.isSome then some (.matrixOpComplete c) else if k.xft.isSome then some (.xftComplete c) else none
/-- The work of a core that is due besides its bundles. -/
def State.dueCore (s : State) (c : CoreId) : Option Instr :=
  let k := s.core c
  firstSome [
    k.freeze.bind fun f => if f.cause.counted && k.record.isNone && decide ((s.die c.die).gauntLimit ≤ f.count) then some (.gauntletTimeout c) else none,
    k.accesses.findSome? fun a => s.dueAccess c a,
    (List.finRange 8).findSome? fun b => (k.buffer b.val).bind fun t => if t.done then none else some (.stagingComplete c b),
    k.mittenDrain.head?.map fun m => .guardCommitComplete c m.ctx,
    k.copyq.findSome? fun q => k.dueCommand c q,
    s.dueSave c,
    ctxIds.findSome? fun x => if s.canFree c x then some (.contextFree c x) else none]
/-- The channels of a launch (R262). -/
def State.dueChannel (s : State) (d : DieId) (l : Launch) : Option Instr :=
  l.chans.findSome? fun h =>
    if !h.transit.isEmpty && !s.consumerSaved d l h then some (.channelDelivery d l.id (BitVec.ofNat 10 h.idx))
    else if h.known < h.received then some (.channelCreditReturn d l.id (BitVec.ofNat 10 h.idx))
    else none
/-- Patante's work (R332, R338, R340, R344); a placement is tried in every 64th step that a launch waits, on the two dies in turn. -/
def State.duePatante (s : State) (d : DieId) : Option Instr :=
  let y := s.die d
  firstSome [
    if y.batch.isEmpty then none else some (.batchRelease d),
    (List.finRange 64).findSome? fun q => if y.queues[q].en && !y.queues[q].park && y.queues[q].head != y.queues[q].tail then some (.queueFetch d q) else none,
    y.graphs.findSome? fun g => (g.nodes.zipIdx.findSome? fun (p : GNode × Nat) => if s.nodeReady g p.2 p.1 then some (.nodeStart d g.id p.2) else none),
    if s.tick % 64 = 32 * d.val && !(y.launches.isEmpty && y.saved.isEmpty) then some (.placementDecision d 0) else none]
/-- The work of a die that is due. -/
def State.dueDie (s : State) (d : DieId) : Option Instr :=
  let y := s.die d
  firstSome [
    y.counters.findSome? fun k =>
      if k.drain && !s.domainOpen d k then some (.domainBarrierComplete d k.launch ⟨k.level % 8, Nat.mod_lt _ (by decide)⟩ k.idx) else none,
    y.launches.findSome? fun l => s.dueChannel d l,
    if y.invBusy && s.invQuiet d then some (.invalidationComplete d) else none,
    if y.grpBusy && y.grpRun.any (s.groupQuiet d) then some (.deactivateComplete d) else none,
    y.walks.head?.map fun w => .pageWalk d w.asid (BitVec.ofNat 55 w.va),
    s.duePatante d]
/-- The work inside the machine that is due, seen from a core. -/
def State.due (s : State) (c : CoreId) : Option Instr :=
  firstSome [if s.updates.isEmpty then none else some (.barrierUpdate 0), s.dueCore c, s.dueDie 0, s.dueDie 1]

/-! ### The next step -/

/-- The first core of the package that is enabled (R10). -/
def State.firstCore (s : State) : CoreId := ((List.finRange 512).find? s.coreEnabled).getD 0
/-- The core whose turn it is: an enabled one (R10). -/
def State.turn (s : State) : CoreId := (s.rota.find? s.coreEnabled).getD s.firstCore
/-- The core whose turn it was goes to the end of the order. -/
def rotate {α : Type} : List α → List α
  | [] => []
  | a :: t => t ++ [a]
/-- What the machine does of itself: the work that is due, or the next cycle of a core. -/
def State.ownStep (s : State) : Instr × State :=
  match s.due s.turn with
  | some i => (i, s)
  | none => (.bundleIssue s.turn, { s with rota := rotate s.rota })
/-- The hart's stalled `sigwait` can go on (R352). -/
def State.hartWakes (s : State) : Option Instr :=
  match s.hartNow.stall with
  | none => none
  | some (rd, a, b) => if s.hartNow.woken || decide ((s.hartNow.get b).toNat ≤ s.memRead (s.localPa (s.hartNow.get a).toNat) 8) then some (.sigwait rd a b) else none
/-- A word of the custom-0 major opcode (R352). -/
def isCustom0 (w : Word32) : Bool := w.toNat % 128 == 0x0B
/-- The next step and the state that it runs in, or why there is none. A custom-0 word outside the table of R352 is an illegal instruction: no instruction
runs, and the hart's mcause says so. -/
def State.nextStep (s : State) : Except Refusal (Option Instr × State) :=
  let t := { s with tick := s.tick + 1 }
  match s.agenda with
  | i :: rest => .ok (some i, { t with agenda := rest })
  | [] =>
    match s.hartWakes, s.hartNow.stall, s.frontWords with
    | some i, _, _ => .ok (some i, t)
    | none, none, w :: rest =>
      match decodeWord .front w.toNat with
      | .ok i => .ok (some i, { t with frontWords := rest })
      | .error _ => if isCustom0 w then .ok (none, { t with frontWords := rest }.cause causeIllegal) else .error .outsideSpec
    | none, _, _ => .ok (some t.ownStep.1, t.ownStep.2)

/-! ### Placing a word to be run -/

/-- The core that `withFetchWord` uses: the one whose turn it is. -/
def State.fetchCore (s : State) : CoreId := s.turn
/-- A bundle of one slot: its crown, the slot word, and a brim of seven zero words. -/
def bundleOf (wk : WordKind) (w : Nat) : List Word32 := (⟨slotBit (slotNo wk), 7, false⟩ : Crown).encode :: BitVec.ofNat 32 w :: List.replicate 7 0
/-- A bundle stands at the PC of a running context, and nothing keeps its core from issuing it. -/
def Core.withBundle (k : Core) (x : CtxId) (ws : List Word32) : Core :=
  let w := (k.ctx x).pc.toNat / 4
  { (k.mapCtx x fun y => { y with st := .running, held := false, via := none, replay := none }) with
    running := some x
    freeze := none
    record := none
    pctlState := 0
    imem := (ws.zipIdx.map fun (p : Word32 × Nat) => (w + p.2, p.1)) ++ k.imem.filter fun e => decide (e.1 < w) || decide (w + ws.length ≤ e.1)
    imap := w :: k.imap.filter fun e => decide (e < w) || decide (w + ws.length ≤ e)
    imemBad := k.imemBad.filter fun e => decide (e < w) || decide (w + ws.length ≤ e) }
/-- The word placed where the next step fetches it (assumption 5): a slot word in a bundle of its own, or a front-end word of Patante's hart. -/
def State.placeWord (s : State) (nbits w : Nat) : State :=
  if 32 < nbits ∨ 2 ^ 32 ≤ w then s
  else
    match firstKind w tableKinds with
    | none => s
    | some (.front, _) => { s.mapHart fun h => { h with stall := none } with agenda := [], frontWords := [BitVec.ofNat 32 w] }
    | some (wk, _) =>
      let c := s.fetchCore
      { s.mapCore c fun k => k.withBundle (k.running.getD 0) (bundleOf wk w) with
        agenda := [.bundleIssue c]
        pkg := { s.pkg with ready := true } }

end Sys2Proof.Machine
end

