-- ==== Sys2Proof/Machine/Step.lean ====
section
/-!
DEFINITION. Sys2Proof/Machine/Step.lean: one step of the machine, and a word placed to be run by the next one.
-/
namespace Sys2Proof.Machine

/-- One step: the next row of the opcode table that takes place, and its meaning (assumption 4). -/
def step (s : State) : Host.Outcome State Fault Refusal :=
  match s.nextStep with
  | .ok (some i, t) => exec i t
  | .ok (none, t) => .next t
  | .error r => .refused r

/-- The state with an instruction word where the next step fetches it (assumption 5). -/
def State.withFetchWord (s : State) (nbits w : Nat) : State := s.placeWord nbits w

end Sys2Proof.Machine
end

