-- ==== Sys2Proof/Safety.lean ====
section
/-!
DEFINITION. Sys2Proof/Safety.lean: the terms in which claims are made: reachable states, runs that never stop, the forms of state that steps are to keep,
and, by operand shape, what the rules of spec/ give for the instructions of a family.
-/
namespace Sys2Proof.Machine

/-- States that steps lead to from a given one. -/
inductive Reaches : State → State → Prop where
  | here (s : State) : Reaches s s
  | next {s t u : State} : Reaches s t → step t = .next u → Reaches s u

/-- The machine has a next state. -/
def State.goesOn (s : State) : Prop := ∃ t, step s = .next t
/-- A run from `s` never stops. -/
def State.safe (s : State) : Prop := ∀ t, Reaches s t → t.goesOn

/-- The memory is in its canonical form. -/
def State.memOk (s : State) : Prop := Memory.wf s.mem = true
/-- `s0` holds zero in every context of every core (R64). -/
def State.zeroOk (s : State) : Prop := ∀ (c : CoreId) (x : CtxId), (s.ctx c x).s[(0 : SReg)] = 0
/-- Two states differ in nothing but what the core `c` holds. -/
def onlyCore (c : CoreId) (s t : State) : Prop := ∃ k, t = s.setCore c k
/-- Two states differ in nothing but the package. -/
def onlyPkg (s t : State) : Prop := ∃ p, t = { s with pkg := p }

end Sys2Proof.Machine

namespace Sys2Proof.Claims
open Sys2Proof.Machine

/-! ### Encoding -/

/-- An instruction whose word carries an opcode, and which slots of the given kinds decode it from (R60, R73). -/
def Coded (op : Nat) (kinds : List WordKind) (i : Instr) : Prop :=
  ∃ k w, encode i = some (k, w) ∧ w / 2 ^ 25 = op ∧ ∀ k ∈ kinds, decodeWord k w = .ok i
/-- A slot instruction: one that a bundle can hold. -/
def IsSlot (i : Instr) : Prop := ∃ k w, encode i = some (k, w) ∧ k ≠ .front

/-! ### Scalar forms: instruction, latency bound, and the integer whose low 64 bits it writes -/

/-- R94. -/
def arithmetic (g : Guard) (d a : SReg) (b : Src) (x y : Word) : List (Instr × Nat × Int) :=
  [(.add g d a b, 1, x.toInt + y.toInt), (.sub g d a b, 1, x.toInt - y.toInt), (.mul g d a b, 3, x.toInt * y.toInt),
    (.min g d a b, 1, min x.toInt y.toInt), (.max g d a b, 1, max x.toInt y.toInt),
    (.minN g d a b, 1, min x.toNat y.toNat), (.maxN g d a b, 1, max x.toNat y.toNat)]
/-- R96: division truncates toward zero; by zero it gives all ones, and the remainder the dividend. -/
def division (g : Guard) (d a : SReg) (b : Src) (x y : Word) : List (Instr × Int) :=
  [(.div g d a b, if y = 0 then -1 else x.toInt.tdiv y.toInt), (.divN g d a b, if y = 0 then -1 else x.toNat / y.toNat),
    (.rem g d a b, x.toInt.tmod y.toInt), (.remN g d a b, x.toNat % y.toNat)]
/-- R97: shifts by `n` places. -/
def shifts (g : Guard) (d a : SReg) (b : Src) (x : Word) (n : Nat) : List (Instr × Int) :=
  [(.shl g d a b, x.toNat * 2 ^ n), (.shr g d a b, x.toNat / 2 ^ n), (.sra g d a b, x.toInt / 2 ^ n)]
/-- R94: bit i of the result by bit i of the operands. -/
def logic (g : Guard) (d a : SReg) (b : Src) : List (Instr × (Bool → Bool → Bool)) :=
  [(.and g d a b, fun p q => p && q), (.or g d a b, fun p q => p || q), (.xor g d a b, fun p q => p != q), (.andn g d a b, fun p q => p && !q)]
/-- R98, with the ranges of R40. -/
def saturating (g : Guard) (d a : SReg) (b : Src) (x y : Word) : List (Nat × Instr × Int) :=
  [(0x27, .addS g d a b, max (-2 ^ 63) (min (x.toInt + y.toInt) (2 ^ 63 - 1))), (0x28, .subS g d a b, max (-2 ^ 63) (min (x.toInt - y.toInt) (2 ^ 63 - 1))),
    (0x29, .addSN g d a b, min ((x.toNat : Int) + y.toNat) (2 ^ 64 - 1)), (0x2A, .subSN g d a b, max ((x.toNat : Int) - y.toNat) 0)]
/-- R99: opcode, instruction and k. -/
def leas (g : Guard) (d a : SReg) (b : Src) : List (Nat × Instr × Nat) :=
  [(0x23, .lea1 g d a b, 1), (0x24, .lea2 g d a b, 2), (0x25, .lea4 g d a b, 4), (0x26, .lea8 g d a b, 8)]
/-- R100: widths and what the extensions keep. -/
def extensions (g : Guard) (d : SReg) (b : Src) (y : Word) : List (Instr × Int) :=
  [(.sext8 g d b, (y.toNat : Int).bmod (2 ^ 8)), (.sext16 g d b, (y.toNat : Int).bmod (2 ^ 16)), (.sext32 g d b, (y.toNat : Int).bmod (2 ^ 32)),
    (.zext8 g d b, y.toNat % 2 ^ 8), (.zext16 g d b, y.toNat % 2 ^ 16), (.zext32 g d b, y.toNat % 2 ^ 32), (.mov g d b, y.toNat)]
/-- R104: instruction and relation. -/
def compares (g : Guard) (d : PReg) (a : SReg) (b : Src) (x y : Word) : List (Instr × Prop) :=
  [(.cmpEq g d a b, x.toNat = y.toNat), (.cmpNe g d a b, x.toNat ≠ y.toNat), (.cmpLt g d a b, x.toInt < y.toInt), (.cmpLe g d a b, x.toInt ≤ y.toInt),
    (.cmpLtN g d a b, x.toNat < y.toNat), (.cmpLeN g d a b, x.toNat ≤ y.toNat)]
/-- R105: opcode, instruction, and bit i of the result by bit i of the operands. -/
def predLogic (g : Guard) (d a : PReg) (b : PSrc) : List (Nat × Instr × (Bool → Bool → Bool)) :=
  [(0x46, .pand g d a b, fun p q => p && q), (0x47, .por g d a b, fun p q => p || q), (0x48, .pxor g d a b, fun p q => p != q),
    (0x49, .pandn g d a b, fun p q => p && !q)]

/-! ### Guards and bundles -/

/-- The guard of a scalar slot (R63): `sel` and the vector slots use their predicate otherwise (R103, R118). -/
def scalarGuard : Instr → Option Guard
  | .add g _ _ _ | .sub g _ _ _ | .mul g _ _ _ | .mulh g _ _ _ | .mulhN g _ _ _ | .div g _ _ _ | .divN g _ _ _ | .rem g _ _ _ | .remN g _ _ _
  | .and g _ _ _ | .or g _ _ _ | .xor g _ _ _ | .andn g _ _ _ | .shl g _ _ _ | .shr g _ _ _ | .sra g _ _ _ | .rol g _ _ _ | .ror g _ _ _
  | .min g _ _ _ | .max g _ _ _ | .minN g _ _ _ | .maxN g _ _ _ | .bfx g _ _ _ | .bfxN g _ _ _ | .bfi g _ _ _ | .lea1 g _ _ _ | .lea2 g _ _ _
  | .lea4 g _ _ _ | .lea8 g _ _ _ | .addS g _ _ _ | .subS g _ _ _ | .addSN g _ _ _ | .subSN g _ _ _ => some g
  | .clz g _ _ | .ctz g _ _ | .popc g _ _ | .sext8 g _ _ | .sext16 g _ _ | .sext32 g _ _ | .zext8 g _ _ | .zext16 g _ _ | .zext32 g _ _ | .mov g _ _
  | .liImm g _ _ | .liBrim g _ _ | .rdsp g _ _ | .wrsp g _ _ | .fmtset g _ => some g
  | .cmpEq g _ _ _ | .cmpNe g _ _ _ | .cmpLt g _ _ _ | .cmpLe g _ _ _ | .cmpLtN g _ _ _ | .cmpLeN g _ _ _ | .pand g _ _ _ | .por g _ _ _
  | .pxor g _ _ _ | .pandn g _ _ _ | .pfrom g _ _ | .pto g _ _ => some g
  | .br g _ | .brcNzOffset g _ _ | .brcNzAbs g _ _ | .brcZOffset g _ _ | .brcZAbs g _ _ | .jr g _ | .call g _ | .ret g | .loopClear g | .done g
  | .trig g | .trap g _ | .sys g _ => some g
  | .ldI8 g _ _ _ | .ldN8 g _ _ _ | .ldI16 g _ _ _ | .ldN16 g _ _ _ | .ldI32 g _ _ _ | .ldN32 g _ _ _ | .ld64 g _ _ _ | .st8 g _ _ _ | .st16 g _ _ _
  | .st32 g _ _ _ | .st64 g _ _ _ | .scld g _ _ _ => some g
  | .ldxI8 g _ _ _ | .ldxN8 g _ _ _ | .ldxI16 g _ _ _ | .ldxN16 g _ _ _ | .ldxI32 g _ _ _ | .ldxN32 g _ _ _ | .ldx64 g _ _ _ | .stx8 g _ _ _
  | .stx16 g _ _ _ | .stx32 g _ _ _ | .stx64 g _ _ _ | .ldxAcq32 g _ _ _ | .ldxAcq64 g _ _ _ | .stxRel32 g _ _ _ | .stxRel64 g _ _ _ => some g
  | .amoAdd32 g _ _ _ | .amoAdd64 g _ _ _ | .amoMin32 g _ _ _ | .amoMin64 g _ _ _ | .amoMax32 g _ _ _ | .amoMax64 g _ _ _ | .amoAnd64 g _ _ _
  | .amoOr64 g _ _ _ | .amoXor64 g _ _ _ | .amoSwap32 g _ _ _ | .amoSwap64 g _ _ _ | .amoCas64 g _ _ _ | .amoFaddF32 g _ _ _
  | .amoFaddF64 g _ _ _ => some g
  | .fence g _ | .xfence g _ _ | .fenceIo g | .bnet g _ _ _ _ | .xftGo g _ _ | .cpy g _ _ _ | .cpyh g _ _ _ | .xpose g | .ewr g _ _ _
  | .ewrBlk g _ _ _ _ | .ego g _ | .erd g _ _ _ _ => some g
  | .tbinit g _ _ | .tbexpect g _ _ | .tbarrive g _ _ | .tbarriveG g _ _ | .tbwait g _ _ | .tbtest g _ _ | .sbset g _ | .sbarm g _ _ | .dbar g _
  | .chrecv g _ _ | .chtest g _ _ | .grdCheck g _ | .rsave g _ _ | .rload g _ _ | .mcred g _ _ _ | .bnload g _ _ _ | .sig g _ _ | .sigMax g _ _
  | .wsig g _ _ => some g
  | _ => none

/-- The guard and the accumulator of an M slot (R88). -/
def matrixGuard : Instr → Option (Guard × Fin 8)
  | .mma g _ acc _ _ _ _ | .mmaH g _ acc _ _ _ _ => some (g, acc)
  | .mmaSd g _ acc _ _ _ => some (g, acc)
  | .sdscan g acc _ _ _ | .sdgen g acc _ _ _ => some (g, acc)
  | .mld g acc _ _ | .mst g acc _ _ => some (g, acc)
  | .mzero g acc => some (g, acc)
  | _ => none

/-- A core that nothing keeps from issuing the bundle of its running context, with nothing in flight. -/
structure Quiet (s : State) (c : CoreId) (x : CtxId) : Prop where
  exists_ : s.coreEnabled c = true
  running : (s.core c).running = some x
  st : (s.ctx c x).st = .running
  held : (s.ctx c x).held = false
  freeze : (s.core c).freeze = none
  record : (s.core c).record = none
  pctl : (s.core c).pctlState = 0
  restoring : (s.core c).restoring = false
  slotWait : (s.core c).slotWait = false
  walked : (s.core c).walked = []
  inflight : (s.core c).inflight = []

/-! ### Memory forms -/

/-- R198: instruction, signed, bytes. -/
def spadLoads (g : Guard) (d a : SReg) (b : Src) : List (Instr × Bool × Nat) :=
  [(.ldI8 g d a b, true, 1), (.ldN8 g d a b, false, 1), (.ldI16 g d a b, true, 2), (.ldN16 g d a b, false, 2), (.ldI32 g d a b, true, 4),
    (.ldN32 g d a b, false, 4), (.ld64 g d a b, false, 8)]
def spadStores (g : Guard) (d a : SReg) (b : Src) : List (Instr × Nat) :=
  [(.st8 g d a b, 1), (.st16 g d a b, 2), (.st32 g d a b, 4), (.st64 g d a b, 8)]
/-- R202: instruction, signed, bytes. -/
def globalLoads (g : Guard) (d a : SReg) (b : Src) : List (Instr × Bool × Nat) :=
  [(.ldxI8 g d a b, true, 1), (.ldxN8 g d a b, false, 1), (.ldxI16 g d a b, true, 2), (.ldxN16 g d a b, false, 2), (.ldxI32 g d a b, true, 4),
    (.ldxN32 g d a b, false, 4), (.ldx64 g d a b, false, 8)]
def globalStores (g : Guard) (d a : SReg) (b : Src) : List (Instr × Nat) :=
  [(.stx8 g d a b, 1), (.stx16 g d a b, 2), (.stx32 g d a b, 4), (.stx64 g d a b, 8)]
/-- The little-endian value of `n` bytes of memory, as an integer, sign-extended when `signed` (R3, R198). -/
def loaded (m : List Host.Cell) (a n : Nat) (signed : Bool) : Int :=
  let v := ((List.range n).map fun i => (Memory.get m (a + i)).toNat * 256 ^ i).sum
  if signed then (v : Int).bmod (256 ^ n) else v
/-- No write of another path that `n` bytes of a scratchpad hold is unordered with a read of them on a path, and no transform in progress writes them:
the read gives the bytes that stand there (R179, R228). An engine meets no poison there either (R195). -/
def Current (s : State) (q : Path) (c : CoreId) (a n : Nat) : Prop :=
  (s.core c).xftOpen a n = false ∧ meeting ((s.core c).openFor c q) (spadBase c + a) n = [] ∧ (q = .mtx → meeting ((s.core c).storing c) (spadBase c + a) n = []) ∧
    (q ≠ .core → ∀ u ∈ s.poison, spadBase c ≤ u → overlaps u 8 (spadBase c + a) n = false)
/-- The same for a command of the copy queue, whose reads are not ordered after the writes that stood unordered when it was queued (R225, R251). -/
def CurrentFor (s : State) (q : Command) (c : CoreId) (a n : Nat) : Prop :=
  (s.core c).xftOpen a n = false ∧ meeting q.behind (spadBase c + a) n = [] ∧ ∀ u ∈ s.poison, overlaps u 8 (spadBase c + a) n = false
/-- The tables map a virtual address of the issuing task, and its die keeps that translation and no other of the address (R278, R281). The bundle is being
executed, not judged for its checks alone (R74). -/
structure Mapped (s : State) (va : Word) (k : Kept) : Prop where
  range : va.toNat < 2 ^ 55
  walk : s.walk s.issue.core.die s.asid va.toNat = .ok k
  kept : (s.die s.issue.core.die).tlb.filter (fun j => j.covers s.asid va.toNat) = [k]
  executing : s.issue.noWalk = false
  asked : s.me.walked = []
/-- A global access of `n` bytes that meets the conditions of R197 under which it executes: mapped, aligned, and assigned memory at its physical address. -/
structure Accessible (s : State) (va : Word) (n : Nat) (k : Kept) : Prop where
  mapped : Mapped s va k
  aligned : va.toNat % n = 0
  assigned : s.assigned (k.paOf va.toNat) = true
/-- The instruction completes by issuing one access, which leaves with the bundle's commit: of the kind, size, physical address and data given, with the next
number of the core; a scalar that awaits it joins the results in flight, due in 1,024 cycles (R73), and an acquire is awaited before any later bundle (R221).
An acquire or a release carries its scope, and a release the time before which it covers what its context did (R222); a `sig` covers it at package scope.
No memory and no register changes at once. -/
def Issues (s : State) (i : Instr) (kind : AccKind) (n pa : Nat) (k : Kept) (data : VWord) (cmp mask : Word) (acq rel : Option Scope) (w : Option SReg) : Prop :=
  ∃ t a, exec i s = .next t ∧ t.mem = s.mem ∧ (∀ c x, t.ctx c x = s.ctx c x) ∧ t.issue.stores = s.issue.stores ++ [.glob a] ∧ a.id = s.me.nextAcc ∧
    a.ctx = s.issue.ctx ∧ a.kind = kind ∧ a.size = n ∧ a.pa = pa ∧ a.cls = k.cls ∧ a.policy = k.policy ∧ a.data = data ∧ a.cmp = cmp ∧ a.mask = mask ∧
    a.acq = acq.isSome ∧ (∀ sc, acq = some sc ∨ (rel = some sc ∧ kind = .store) → a.scope = scopeCode sc) ∧ a.rel = (rel.isSome && isStore kind) ∧
    a.points = rel.toList.map (fun sc => (scopeCode sc, s.tick)) ∧
    (s.my.grd = false → a.bufMask = 0) ∧ a.performed = false ∧ t.issue.acqWait = s.issue.acqWait ++ (if acq.isSome then [s.me.nextAcc] else []) ∧
    t.me.nextAcc = s.me.nextAcc + 1 ∧ t.me.inflight = s.me.inflight ++
      match w with
      | none => []
      | some d => [⟨s.issue.ctx, .s d, s.me.cycle, s.me.cycle + 1024, false, false, none, some s.me.nextAcc, none, []⟩]
/-- The core keeps no lease copy older than a write that must be visible now: of any writer but the host, and, where `clocked`, of the die's own contexts (R216,
R222). -/
def NoStale (s : State) (c : CoreId) (clocked : Bool) : Prop :=
  ∀ y ∈ (s.core c).copies, (∀ t, (s.die c.die).landed.lookup y.line = some t → t ≤ y.wts) ∧ (clocked = true → ∀ t, (s.die c.die).stored.lookup y.line = some t → t ≤ y.wts)
/-- A state differs from another in nothing but what a context has heard of releases (R221, R222). -/
def OnlyHeard (c : CoreId) (x : CtxId) (s t : State) : Prop := t = s ∨ ∃ y, t = s.mapCtx c x fun k => { k with sync := y }
/-- The releases whose values stand in memory at `n` bytes of an address, as an acquire of a scope finds them (R221, R222). -/
def standing (s : State) (pa n : Nat) (sc : Scope) : List Heard :=
  s.flags.flatMap fun f =>
    if overlaps f.pa f.size pa n = true ∧ Memory.read s.mem f.pa f.size = f.val then f.points.map fun p => ⟨f.core, f.ctx, p.1, p.2, scopeCode sc, s.me.nextAcc⟩ else []
/-- After an acquire, what the core keeps of other lines is none older than what the acquire must make visible, and its context has synchronised with every
release whose value it read, or had done so before (R222); a plain load has only heard of them. -/
def AfterLoad (s : State) (acq : Option Scope) (n pa : Nat) (t u : State) : Prop :=
  match acq with
  | some sc => ∃ v, OnlyHeard s.issue.core s.issue.ctx t v ∧ u = v.dropStale s.issue.core true ∧
      ∀ h ∈ standing s pa n sc, ∃ g ∈ (v.ctx s.issue.core s.issue.ctx).sync.heard, { g with acc := h.acc } = h
  | none => OnlyHeard s.issue.core s.issue.ctx t u
/-- A global load of a mapped address completes (R202, R203): by an access that its scalar awaits, or, from the core's own scratchpad, with the bytes as they
stand before the bundle (R211). -/
def Loads (s : State) (i : Instr) (signed : Bool) (n pa : Nat) (k : Kept) (d : SReg) (acq : Option Scope) : Prop :=
  (s.ownSpad pa = none → Issues s i (.load signed) n pa k 0 0 0 acq none (some d)) ∧
  ∀ o, s.ownSpad pa = some o → ∃ (v : VWord) (m : BitVec 8) (b : Word) (u : State), exec i s = .next u ∧
    AfterLoad s acq n pa ((s.touch [o]).writeLoad (.s d) 1024 v (s.poisonAt pa n) [⟨0, 64, o, n, signed, m, b⟩]) u ∧ (s.my.grd = false → m = 0) ∧
    (s.my.grd = false → Current s .core s.issue.core o n → v = (BitVec.ofInt 64 (loaded s.mem (0x10000000000 + s.issue.core.val * 0x200000 + o) n signed)).setWidth 2048)
/-- A global store to a mapped address completes (R202, R203, R207): by an access, by bytes staged for the core's own scratchpad, with the release
that they are, or, under a guard, by bytes staged for the task's buffer. -/
def Stores (s : State) (i : Instr) (n pa : Nat) (k : Kept) (v : Word) (rel : Option Scope) : Prop :=
  (s.my.grd = false → s.ownSpad pa = none → Issues s i .store n pa k (v.setWidth 2048) 0 0 none rel none) ∧
  (s.my.grd = false → ∀ o, s.ownSpad pa = some o → ∃ t, exec i s = .next t ∧ t.mem = s.mem ∧ t.cores = s.cores ∧
    t.issue.stores = s.issue.stores ++ [.spad o n (v.setWidth 2048)] ++ rel.toList.map fun sc => .flag pa n [(scopeCode sc, s.tick)]) ∧
  (s.my.grd = true → exec i s = .next (s.stage (.buffered pa n k.policy (v.setWidth 2048))))
/-- R209: operation, bytes of an element, and the new value of an element from the old one and the operand's. -/
def nearBankValues : List (NbOp × Nat × (Nat → Nat → Nat)) :=
  [(.addF32, 4, fpAdd fp32), (.addF64, 8, fpAdd fp64), (.addI32, 4, fun m v => (m + v) % 2 ^ 32), (.addI64, 8, fun m v => (m + v) % 2 ^ 64),
    (.maxF32, 4, fpMax fp32), (.minF32, 4, fpMin fp32), (.scaleF32, 4, fpMul fp32), (.scaleF64, 8, fpMul fp64)]
/-- The access is an acquire, and no other of its context is awaited: the rest of its bundle's accesses go on (R214, R222). -/
def LastAcquire (s : State) (c : CoreId) (a : Access) : Prop := a.acq = true ∧ ∀ b ∈ (s.core c).accesses, b.id ≠ a.id → b.ctx = a.ctx → b.acq = false
/-- A reply ends an access: the results in flight that await it take a value, with the poison of its unit, and no register changes (R202, R208, R380). After the
last acquire of a bundle, its loads of the core's scratchpad read the bytes that then stand there, and its stores that have waited take place (R214, R222). -/
def Replied (s t : State) (c : CoreId) (a : Access) (v : Int) : Prop :=
  let held := (s.core c).heldStores.filter fun p => p.1 == a.ctx
  let place (o : Nat) := 0x10000000000 + c.val * 0x200000 + o
  (t.core c).access a.id = none ∧ (∀ e x, (t.ctx e x).s = (s.ctx e x).s ∧ (t.ctx e x).p = (s.ctx e x).p ∧ (t.ctx e x).v = (s.ctx e x).v ∧ (t.ctx e x).pc = (s.ctx e x).pc) ∧
  (∃ f : InFlight → InFlight, (t.core c).inflight = (s.core c).inflight.map f ∧
    (∀ e, e.src = [] ∨ e.ctx ≠ a.ctx ∨ ¬LastAcquire s c a → f e = if e.acc = some a.id then
      { e with acc := none, poison := if a.poisoned then some (a.pa, a.pc, a.next) else none, val := some ((BitVec.ofInt 64 v).setWidth 2048) } else e) ∧
    (LastAcquire s c a → ∀ (e : InFlight) (o n : Nat) (sg : Bool) (w : Word), e.ctx = a.ctx → e.acc ≠ some a.id → e.src = [⟨0, 64, o, n, sg, 0, w⟩] → n ∈ [1, 2, 4, 8] →
      o + n ≤ 0x200000 → Current s .core c o n → (f e).src = [] ∧ (f e).val.map (·.setWidth 64) = some (BitVec.ofInt 64 (loaded s.mem (place o) n sg)) ∧
        ((∀ u ∈ s.poison, overlaps u 8 (place o) n = false) → (f e).poison = none))) ∧
  (held = [] ∨ ¬LastAcquire s c a → t.mem = s.mem) ∧
  (LastAcquire s c a → ∀ (o n : Nat) (x : VWord), held = [(a.ctx, .spad o n x)] → n ∈ [1, 2, 4, 8] → o + n ≤ 0x200000 → s.memOk → t.memOk ∧
    (∀ i < n, (Memory.get t.mem (place o + i)).toNat = x.toNat / 256 ^ i % 256) ∧ ∀ p, p < place o ∨ place o + n ≤ p → Memory.get t.mem p = Memory.get s.mem p)
/-- The value that `n` bytes give a register, sign-extended or not (R198, R208). -/
def extended (signed : Bool) (n v : Nat) : Int := if signed then (v : Int).bmod (256 ^ n) else v
/-- The physical address of a mapped virtual one, with the package's own window resolved (R185). -/
def physOf (s : State) (va : Word) (k : Kept) : Nat := s.localPa (k.paOf va.toNat)
/-- R208. -/
def atomics (g : Guard) (d a : SReg) (b : Src) : List (Instr × AmoOp × Nat) :=
  [(.amoAdd32 g d a b, .add, 4), (.amoAdd64 g d a b, .add, 8), (.amoMin32 g d a b, .min, 4), (.amoMin64 g d a b, .min, 8), (.amoMax32 g d a b, .max, 4),
    (.amoMax64 g d a b, .max, 8), (.amoAnd64 g d a b, .and, 8), (.amoOr64 g d a b, .or, 8), (.amoXor64 g d a b, .xor, 8), (.amoSwap32 g d a b, .swap, 4),
    (.amoSwap64 g d a b, .swap, 8), (.amoCas64 g d a b, .cas, 8), (.amoFaddF32 g d a b, .fadd, 4), (.amoFaddF64 g d a b, .fadd, 8)]
/-- R209. -/
def nearBank (g : Guard) (d : VNum) (a : SReg) (b : Src) : List (Instr × NbOp) :=
  [(.nbopAddF32 g d a b, .addF32), (.nbopAddF64 g d a b, .addF64), (.nbopAddI32 g d a b, .addI32), (.nbopAddI64 g d a b, .addI64),
    (.nbopMaxF32 g d a b, .maxF32), (.nbopMinF32 g d a b, .minF32), (.nbopScaleF32 g d a b, .scaleF32), (.nbopScaleF64 g d a b, .scaleF64)]

/-! ### Vector forms -/

/-- The instruction completes: it lands a vector in `vD` by its bound, and counts its pops; element `l` of width `w` holds `f l` where the predicate is set
and keeps the old element, its own `e` bits with zero above them, elsewhere (R81, R116, R118, R119). -/
def LandsLanes (s : State) (i : Instr) (g : Guard) (d : VNum) (w e bound pops : Nat) (f : Nat → Int) : Prop :=
  ∃ r, exec i s = .next ((s.writeV d bound r).addPops pops) ∧
    ∀ l < 2048 / w, (elem r w l : Int) = if (s.active g).getLsbD l then f l % 2 ^ w else elem (s.readV d 2) w l % 2 ^ e
/-- Element `l` of the two operands of a vector form (R64, R117). -/
def laneA (s : State) (a : VSrc) (w l : Nat) : Nat := elem (s.vsrc a 0 0 w) w l
def laneB (s : State) (a : VSrc) (b : VOp) (w l : Nat) : Nat := elem (s.vop b 1 (srcPops a) w) w l
/-- Integer columns (R120, R122): instruction, bound, and the exact result; `v` reads an element's value. -/
def intLanes (g : Guard) (f : VFmt) (d : VNum) (a : VSrc) (b : VOp) (v : Nat → Int) : List (Instr × Nat × (Nat → Nat → Int)) :=
  [(.vadd g f d a b, 2, fun x y => v x + v y), (.vsub g f d a b, 2, fun x y => v x - v y), (.vmul g f d a b, 4, fun x y => v x * v y),
    (.vmin g f d a b, 2, fun x y => min (v x) (v y)), (.vmax g f d a b, 2, fun x y => max (v x) (v y))]
/-- Float columns (R120): the exact value before its one rounding. -/
def floatLanes (g : Guard) (f : VFmt) (d : VNum) (a : VSrc) (b : VOp) : List (Instr × (Fp → Fp → Fp)) :=
  [(.vadd g f d a b, Fp.add), (.vsub g f d a b, Fp.sub), (.vmul g f d a b, Fp.mul)]
/-- R136: instruction and function. -/
def specials (g : Guard) (wide : Bool) (d : VNum) (a : VSrc) : List (Instr × (Fp → Fp)) :=
  [(.vrcp g wide d a, fpRecip), (.vrsqrt g wide d a, fpRsqrt), (.vexp2 g wide d a, fpExp2), (.vlog2 g wide d a, fpLog2), (.vtanh g wide d a, fpTanh)]
/-- R127: opcode, instruction, and bit by bit. -/
def vectorLogic (g : Guard) (d : VNum) (a : VSrc) (b : VOp) : List (Nat × Instr × (Bool → Bool → Bool)) :=
  [(0x50, .vand g d a b, fun p q => p && q), (0x51, .vor g d a b, fun p q => p || q), (0x52, .vxor g d a b, fun p q => p != q),
    (0x53, .vandn g d a b, fun p q => p && !q)]
/-- R128: shifts by the low bits of the element. -/
def vectorShifts (g : Guard) (wide : Bool) (d : VNum) (a : VSrc) (b : VOp) (w : Nat) : List (Instr × (Nat → Nat → Int)) :=
  [(.vshl g wide d a b, fun x n => x * 2 ^ n), (.vshr g wide d a b, fun x n => x / 2 ^ n), (.vsra g wide d a b, fun x n => (x : Int).bmod (2 ^ w) / 2 ^ n)]
/-- The value of an element of an integer column (R124). -/
def colValue (f : VFmt) (x : Nat) : Int := if isSigned f then (x : Int).bmod (2 ^ laneW f) else x

/-- The least and the greatest value of an integer column (R40). -/
def colLow (f : VFmt) : Int := if isSigned f then -2 ^ (laneW f - 1) else 0
def colHigh (f : VFmt) : Int := if isSigned f then 2 ^ (laneW f - 1) - 1 else 2 ^ laneW f - 1
/-- `i` is the integer to which a mode rounds v / 2^sh (R132). -/
def RoundsTo (m : RMode) (v : Int) (sh : Nat) (i : Int) : Prop :=
  match m with
  | .rd => i = v / 2 ^ sh
  | .ru => i = -(-v / 2 ^ sh)
  | .rz => i = v.tdiv (2 ^ sh)
  | .rn => 2 * (v - i * 2 ^ sh).natAbs ≤ 2 ^ sh ∧ (2 * (v - i * 2 ^ sh).natAbs = 2 ^ sh → i % 2 = 0)
/-- What R124 gives for a < b (`lt`) and a = b (`eq`) in a column: NaN makes both false, -0 equals +0, and finite values compare as numbers. -/
def Compares (f : VFmt) (x y : Nat) (lt eq : Bool) : Prop :=
  match fpOf f with
  | none => (lt = true ↔ colValue f x < colValue f y) ∧ (eq = true ↔ colValue f x = colValue f y)
  | some p =>
    match Fp.ofBits p x, Fp.ofBits p y with
    | .nan, _ | _, .nan => lt = false ∧ eq = false
    | .inf a, .inf b => lt = (a && !b) ∧ eq = (a == b)
    | .inf a, .fin .. => lt = a ∧ eq = false
    | .fin .., .inf b => lt = !b ∧ eq = false
    | .fin a m e, .fin b n k => (lt = true ↔ Fp.numer a m e (min e k) < Fp.numer b n k (min e k)) ∧
        (eq = true ↔ Fp.numer a m e (min e k) = Fp.numer b n k (min e k))
/-- What R132 gives for element `x` of one column converted to another: `y`. -/
def Converts (m : RMode) (src dst : VFmt) (x y : Nat) : Prop :=
  match fpOf src, fpOf dst with
  | some p, some q => y = (Fp.ofBits p x).round q m ∧ (Fp.ofBits p x = .nan → y = q.nanBits) ∧
      (src = dst → Fp.ofBits p x ≠ .nan → y = x % 2 ^ p.width) ∧
      ∀ n k e, Fp.ofBits p x = .fin n k e → k ≠ 0 → q.bias + 1 ≤ k.log2 + e →
        y = match m with
          | .rn => q.infBits n
          | .rz => q.maxBits n
          | .ru => if n then q.maxBits n else q.infBits n
          | .rd => if n then q.infBits n else q.maxBits n
  | some p, none =>
    match Fp.ofBits p x with
    | .nan => y = 0
    | .inf n => (y : Int) = (if n then colLow dst else colHigh dst) % 2 ^ laneW dst
    | .fin n k e => ∃ i, RoundsTo m (Fp.numer n k e (min e 0)) (-(min e 0)).toNat i ∧
        (y : Int) = max (colLow dst) (min (colHigh dst) i) % 2 ^ laneW dst
  | none, some q => y = (Fp.ofInt (colValue src x)).round q m
  | none, none => (y : Int) = max (colLow dst) (min (colHigh dst) (colValue src x)) % 2 ^ laneW dst
/-- The integer that a narrow conversion clamps `v` to (R42): the reserved code is never written while a substitute is chosen. -/
def narrowClamp (fmtn : BitVec 5) (w : Nat) (v : Int) : Int :=
  if fmtn.getLsbD 0 then max (if fmtn.toNat / 8 = 0 then -2 ^ (w - 1) else 1 - 2 ^ (w - 1)) (min (2 ^ (w - 1) - 1) v) else max 0 (min (2 ^ w - 1) v)
/-- The value of a narrow code (R42). -/
def narrowValue (fmtn : BitVec 5) (w c : Nat) : Int :=
  if !fmtn.getLsbD 0 then c
  else if c = 2 ^ (w - 1) then (match fmtn.toNat / 8 with | 0 => -2 ^ (w - 1) | 1 => 0 | _ => 1 - 2 ^ (w - 1))
  else (c : Int).bmod (2 ^ w)
/-- The row that R133 gives for 64 lanes `x`: four blocks of R46, or dense narrow codes; a lane that is not real is padding. -/
def Packs (fmtn : BitVec 5) (src : VFmt) (t : PackFmt) (real : Word) (x : Nat → Nat) (row : Nat) : Prop :=
  match packSx t, fpOf src with
  | some m, some p => row < 2 ^ (32 * sxBlockBytes m) ∧ ∀ b < 4, row / 2 ^ (8 * sxBlockBytes m * b) % 2 ^ (8 * sxBlockBytes m) =
      sxEncode m ((List.range 16).map fun i => if real.getLsbD (16 * b + i) then some (Fp.ofBits p (x (16 * b + i))) else none)
  | none, none => row < 2 ^ (64 * packWidth t fmtn) ∧ ∀ l < 64, ((row / 2 ^ (packWidth t fmtn * l) % 2 ^ packWidth t fmtn : Nat) : Int) =
      if real.getLsbD l then narrowClamp fmtn (packWidth t fmtn) (colValue src (x l)) % 2 ^ packWidth t fmtn else 0
  | _, _ => True
/-- The lane `l` that R134 gives for a packed row: `y`. -/
def Unpacks (fmtn : BitVec 5) (dst : VFmt) (t : PackFmt) (row l y : Nat) : Prop :=
  match packSx t, fpOf dst with
  | some m, some p => y = (sxDecode m (row / 2 ^ (8 * sxBlockBytes m * (l / 16)) % 2 ^ (8 * sxBlockBytes m)) (l % 16)).round p .rn ∧
      (row / 2 ^ (8 * sxBlockBytes m * (l / 16)) % 256 = 255 → y = p.nanBits)
  | none, none => (y : Int) = narrowValue fmtn (packWidth t fmtn) (row / 2 ^ (packWidth t fmtn * l) % 2 ^ packWidth t fmtn) % 2 ^ 32
  | _, _ => True
/-- The active elements up to number `l`, in ascending order, the canonical one (R135). -/
def activeUpTo (act : Word) (xs : List Nat) (l : Nat) : List Nat := (xs.zipIdx.filter fun p => act.getLsbD p.2 && decide (p.2 ≤ l)).map (·.1)
/-- The reduction of a list from its first element's value; 0 of none (R135). -/
def reduced (first : Nat → Nat) (step : Nat → Nat → Nat) : List Nat → Nat
  | [] => 0
  | x :: t => t.foldl step (first x)
/-- The format a reduction is kept in: FP16 and BF16 elements are summed in FP32 (R135). -/
def keptIn (src : VFmt) (op : RedOp) : VFmt := if elemBits src = 16 ∧ (op = .sum ∨ op = .scan ∨ op = .sumsq) then .f32 else src
/-- The first value and the step of each operation of `vred` in a float format and in an integer column (R135). -/
def floatReduction (p : FpFmt) : RedOp → Option ((Nat → Nat) × (Nat → Nat → Nat))
  | .sum | .scan => some (fun x => (Fp.ofBits p x).round p .rn, fun r x => ((Fp.ofBits p r).add (Fp.ofBits p x)).round p .rn)
  | .min => some (fun x => (Fp.ofBits p x).round p .rn, fun r x => fpMin p (r % 2 ^ p.width) (x % 2 ^ p.width))
  | .max => some (fun x => (Fp.ofBits p x).round p .rn, fun r x => fpMax p (r % 2 ^ p.width) (x % 2 ^ p.width))
  | .sumsq => some (fun x => ((Fp.ofBits p x).mul (Fp.ofBits p x)).round p .rn,
      fun r x => (((Fp.ofBits p x).mul (Fp.ofBits p x)).add (Fp.ofBits p r)).round p .rn)
  | .sumS | .scanS => none
def intReduction (f : VFmt) : RedOp → (Nat → Nat) × (Nat → Nat → Nat)
  | .sum | .scan => (id, fun r x => (r + x) % 2 ^ laneW f)
  | .min => (id, fun r x => if colValue f r ≤ colValue f x then r else x)
  | .max => (id, fun r x => if colValue f r ≤ colValue f x then x else r)
  | .sumS | .scanS => (id, fun r x => (max (colLow f) (min (colHigh f) (colValue f r + colValue f x)) % 2 ^ laneW f).toNat)
  | .sumsq => (fun x => x * x % 2 ^ laneW f, fun r x => (r + x * x) % 2 ^ laneW f)
/-- Element `l` that R135 gives for the lanes `xs`: a scan's after the last active element up to `l`, any other's after them all. -/
def reductionAt (src : VFmt) (op : RedOp) (act : Word) (xs : List Nat) (l : Nat) : Option Nat :=
  let upTo := if op = .scan ∨ op = .scanS then l else xs.length
  match fpOf src, fpOf (keptIn src op) with
  | some p, some q => (floatReduction q op).map fun r =>
      reduced r.1 r.2 (activeUpTo act (xs.map fun x => if keptIn src op = src then x % 2 ^ elemBits src else (Fp.ofBits p x).round q .rn) upTo)
  | _, _ => some (reduced (intReduction src op).1 (intReduction src op).2 (activeUpTo act xs upTo))

/-! ### The matrix unit and the engines -/

/-- A scratchpad operand of the matrix unit that passes the range, alignment and bank-group checks (R141, R160). -/
def OperandOk (a : Word) (n : Nat) : Prop := a.toNat % 64 = 0 ∧ a.toNat + n ≤ 0x200000 ∧ a.toNat / 2 ^ 18 = (a.toNat + n - 1) / 2 ^ 18
/-- Two operands in different bank groups (R141). -/
def Apart (a b : Word) : Prop := a.toNat / 2 ^ 18 % 4 ≠ b.toNat / 2 ^ 18 % 4
/-- The issuing context owns the accumulator, and the slot executes. -/
def UnitReady (s : State) (g : Guard) (acc : Fin 8) : Prop := s.guard g = true ∧ s.my.accMask.getLsbD acc.val = true
/-- On an idle unit the instruction starts an operation of the matrix unit that ends `occ` cycles later with the given rows, and changes no memory, no
accumulator and no register file meanwhile; `fl` is what is in flight then (R143), and `st` the scratchpad address and the bytes of a row of what it is to store,
if it stores (R158, R159). On a busy unit the bundle waits (R143). -/
def Starts (s : State) (i : Instr) (acc : Option (Fin 8)) (occ : Nat) (rows : List VWord) (st : Option (Nat × Nat)) (fl : List InFlight) : Prop :=
  (s.me.mtx ≠ none → exec i s = .next (s.wait .matrix)) ∧
  (s.me.mtx = none → ∃ t m, exec i s = .next t ∧ t.mem = s.mem ∧ t.me.acc = s.me.acc ∧
    (∀ c x, (t.ctx c x).s = (s.ctx c x).s ∧ (t.ctx c x).p = (s.ctx c x).p ∧ (t.ctx c x).v = (s.ctx c x).v) ∧
    t.me.mtx = some m ∧ m.ctx = s.issue.ctx ∧ m.acc = acc ∧ m.ends = s.me.cycle + occ ∧ m.rows = rows ∧ m.store = st ∧ m.dirty = [] ∧ t.me.inflight = fl)
/-- One block of products of an accumulator element, from the encoding `x` to `y` (R47, R48): a zero element of A contributes nothing; with no product the element
stays; otherwise the exact sum of the products is added with one rounding, an exact zero as +0, unless a product is infinite or a NaN. -/
def BlockGives (x : Nat) (ab : List (Fp × Fp)) (y : Nat) : Prop :=
  let ps := (ab.filter fun p => p.1.isZero = false).map fun p => p.1.mul p.2
  let sum := ps.foldl Fp.add Fp.zero
  (ps = [] → y = x) ∧
  (ps ≠ [] → (Fp.nan ∈ ps ∨ (Fp.inf false ∈ ps ∧ Fp.inf true ∈ ps) → y = 0x7FC00000) ∧
    (Fp.nan ∉ ps → ∀ n, Fp.inf n ∈ ps → Fp.inf (!n) ∉ ps → y = ((Fp.ofBits fp32 x).add (.inf n)).round fp32 .rn) ∧
    (Fp.nan ∉ ps → (∀ n, Fp.inf n ∉ ps) → y = ((Fp.ofBits fp32 x).add (if sum.isZero then Fp.zero else sum)).round fp32 .rn))
/-- The elements of an accumulator row that a product gives, from the row before, a row of A and the rows of B (R47 to R50, R140, R145, R147): blocks of 16 in
ascending k, a chain of fused steps in FP64, and the exact sum of a narrow form, wrapped or scaled, which leaves the row where A holds zeros alone. -/
def RowGives (f : MFmt) (fmtn : BitVec 5) (sc : Option (BitVec 512)) (a : Nat) (bs : List Nat) (acc row : VWord) : Prop :=
  if f.isNarrow then
    let x (k : Nat) : Int := narrowDecode fmtn f.narrowW (a / 2 ^ (f.narrowW * k) % 2 ^ f.narrowW)
    ((∀ k < f.depth, x k = 0) → row = acc) ∧
    ((∃ k < f.depth, x k ≠ 0) → ∀ c < 64, ∀ t : Int,
      t = ((List.range f.depth).map fun k => x k * narrowDecode fmtn f.narrowW (bs.getD c 0 / 2 ^ (f.narrowW * k) % 2 ^ f.narrowW)).sum →
      match sc with
      | none => (elem row 32 c : Int) = ((elem acc 32 c : Int) + t) % 2 ^ 32
      | some v => ∀ e : Nat, e = v.toNat / 256 ^ c % 256 → elem row 32 c =
          if e = 255 then 0x7FC00000 else ((Fp.ofBits fp32 (elem acc 32 c)).add ((Fp.ofInt t).scale ((e : Int) - 127))).round fp32 .rn)
  else if f = .f64 then
    ∀ c < 32, ∃ r : Nat → Nat, r 0 = elem acc 64 c ∧ elem row 64 c = r 8 ∧ ∀ k < 8, r (k + 1) =
      if (f.fpElem a k).isZero then r k else (((f.fpElem a k).mul (f.fpElem (bs.getD c 0) k)).add (Fp.ofBits fp64 (r k))).round fp64 .rn
  else
    ∀ c < 64, ∃ r : Nat → Nat, r 0 = elem acc 32 c ∧ elem row 32 c = r (f.depth / 16) ∧
      ∀ j < f.depth / 16, BlockGives (r j) ((List.range 16).map fun k => (f.fpElem a (16 * j + k), f.fpElem (bs.getD c 0) (16 * j + k))) (r (j + 1))
/-- A weight of a seed descriptor in its coefficient format: `n` terms, each added or subtracted with one rounding (R153). -/
def WeightIs (f : FpFmt) (n : Nat) (coef : Nat → Nat) (neg : Nat → Bool) (w : Nat) : Prop :=
  ∃ r : Nat → Nat, r 0 = 0 ∧ w = r n ∧ ∀ j < n, r (j + 1) =
    ((Fp.ofBits f (r j)).add (if neg j then (Fp.ofBits f (coef j)).neg else Fp.ofBits f (coef j))).round f .rn
/-- The number of the best of some scores, as FP64 encodings: the first of the largest that are no NaN, or 0 where all are (R156). -/
def BestOf (sc : Nat → Nat) (cnt n : Nat) : Prop :=
  (n = 0 ∧ ∀ i < cnt, (Fp.ofBits fp64 (sc i)).isNan = true) ∨
  (n < cnt ∧ (Fp.ofBits fp64 (sc n)).isNan = false ∧ ∀ i < cnt, (Fp.ofBits fp64 (sc i)).isNan = false → sc i ≤ sc n ∧ (sc i = sc n → n ≤ i))
/-- The accumulator rows that an `mma` form starts from: zero with its z flag (R145). -/
def startRows (s : State) (acc : Fin 8) (z : Bool) : List VWord := if z then List.replicate 64 0 else s.me.acc[acc].toList
/-- The butterfly of radix `r`, each component rounded once where R171 to R173 say so. -/
def Butterfly (f : FpFmt) (inv : Bool) (r : Nat) (a b : Nat → Cx) : Prop :=
  let v (x : Nat) := Fp.ofBits f x
  let rn (x : Fp) := x.round f .rn
  let plus (x y : Cx) : Cx := (rn ((v x.1).add (v y.1)), rn ((v x.2).add (v y.2)))
  let minus (x y : Cx) : Cx := (rn ((v x.1).sub (v y.1)), rn ((v x.2).sub (v y.2)))
  let times (c : Nat) (y : Cx) : Cx := (rn ((v c).mul (v y.1)), rn ((v c).mul (v y.2)))
  let more (x : Cx) (c : Nat) (y : Cx) : Cx := (rn ((v x.1).add ((v c).mul (v y.1))), rn ((v x.2).add ((v c).mul (v y.2))))
  let less (x : Cx) (c : Nat) (y : Cx) : Cx := (rn ((v x.1).add ((v c).mul (v y.1)).neg), rn ((v x.2).add ((v c).mul (v y.2)).neg))
  let down (x y : Cx) : Cx := (rn ((v x.1).add (v y.2)), rn ((v x.2).sub (v y.1)))
  let up (x y : Cx) : Cx := (rn ((v x.1).sub (v y.2)), rn ((v x.2).add (v y.1)))
  match r with
  | 2 => b 0 = plus (a 0) (a 1) ∧ b 1 = minus (a 0) (a 1)
  | 3 => ∃ sm d h x y : Cx, ∃ c : Nat, sm = plus (a 1) (a 2) ∧ d = minus (a 1) (a 2) ∧ c = rn (sinPiRat 1 3) ∧ h = less (a 0) (rn (.fin false 1 (-1))) sm ∧
      x = (rn ((v h.1).add ((v c).mul (v d.2))), rn ((v h.2).add ((v c).mul (v d.1)).neg)) ∧
      y = (rn ((v h.1).add ((v c).mul (v d.2)).neg), rn ((v h.2).add ((v c).mul (v d.1)))) ∧
      b 0 = plus (a 0) sm ∧ b 1 = (if inv then y else x) ∧ b 2 = (if inv then x else y)
  | 4 => ∃ t0 t1 t2 t3 : Cx, t0 = plus (a 0) (a 2) ∧ t1 = minus (a 0) (a 2) ∧ t2 = plus (a 1) (a 3) ∧ t3 = minus (a 1) (a 3) ∧
      b 0 = plus t0 t2 ∧ b 2 = minus t0 t2 ∧ b 1 = (if inv then up t1 t3 else down t1 t3) ∧ b 3 = (if inv then down t1 t3 else up t1 t3)
  | 5 => ∃ p1 q1 p2 q2 a1 a2 b1 b2 : Cx, ∃ c1 c2 s1 s2 : Nat,
      p1 = plus (a 1) (a 4) ∧ q1 = minus (a 1) (a 4) ∧ p2 = plus (a 2) (a 3) ∧ q2 = minus (a 2) (a 3) ∧
      c1 = rn (cosPiRat 2 5) ∧ c2 = rn (cosPiRat 4 5) ∧ s1 = rn (sinPiRat 2 5) ∧ s2 = rn (sinPiRat 4 5) ∧
      a1 = more (more (a 0) c1 p1) c2 p2 ∧ a2 = more (more (a 0) c2 p1) c1 p2 ∧ b1 = more (times s1 q1) s2 q2 ∧ b2 = less (times s2 q1) s1 q2 ∧
      b 0 = plus (plus (a 0) p1) p2 ∧ b 1 = (if inv then up a1 b1 else down a1 b1) ∧ b 4 = (if inv then down a1 b1 else up a1 b1) ∧
      b 2 = (if inv then up a2 b2 else down a2 b2) ∧ b 3 = (if inv then down a2 b2 else up a2 b2)
  | _ => False
/-- `w` is Twiddle(x, t) for length `n` (R170). -/
def Twiddled (f : FpFmt) (inv : Bool) (n : Nat) (x : Cx) (t : Nat) (w : Cx) : Prop :=
  let v (x : Nat) := Fp.ofBits f x
  let sin := sinPiRat (2 * t) n
  let c := (cosPiRat (2 * t) n).round f .rn
  let s := (if sin.isZero then Fp.zero else if inv then sin else sin.neg).round f .rn
  (t = 0 → w = x) ∧ (t ≠ 0 → w = ((((v x.1).mul (v c)).sub ((v x.2).mul (v s))).round f .rn, (((v x.1).mul (v s)).add ((v x.2).mul (v c))).round f .rn))
/-- `y` is the transform of `x` by the self-sorting sequence of R169, with the radices `rs`. -/
def Transforms (f : FpFmt) (inv : Bool) (rs : List Nat) (x y : Nat → Cx) : Prop :=
  let n := rs.foldl (· * ·) 1
  ∃ cur : Nat → Nat → Cx, (∀ k < n, cur 0 k = x k ∧ y k = cur rs.length k) ∧ ∀ i < rs.length, ∀ r ls m : Nat, r = rs.getD i 0 → ls = (rs.take i).foldl (· * ·) 1 → m = n / (ls * r) →
    ∀ p < m, ∀ q < ls, ∃ b : Nat → Cx, Butterfly f inv r (fun t => cur i (q + ls * (p + t * m))) b ∧
      ∀ u < r, Twiddled f inv n (b u) (p * u * ls % n) (cur (i + 1) (q + ls * (r * p + u)))
/-- An address of memory lies in no output component of transform `b` of a plan on a core (R175). -/
def OutsideOutputs (c : CoreId) (p : Vector Word 16) (b addr : Nat) : Prop :=
  ∀ k < planN p, ∀ o : Nat, o = 0x10000000000 + c.val * 0x200000 + (planOut p).at b k →
    (addr < o ∨ o + planZ p ≤ addr) ∧ (addr < o + (planOut p).im ∨ o + (planOut p).im + planZ p ≤ addr)
/-- No two output components of transform `b` of a plan overlap (R176). -/
def OutputsApart (p : Vector Word 16) (b : Nat) : Prop :=
  let o := planOut p
  let z := planZ p
  let far (x y : Nat) : Prop := x + z ≤ y ∨ y + z ≤ x
  ∀ j < planN p, ∀ k < planN p, far (o.at b j) (o.at b k + o.im) ∧ (j ≠ k → far (o.at b j) (o.at b k) ∧ far (o.at b j + o.im) (o.at b k + o.im))
/-- One command joins the end of the issuing core's copy queue with the next tag (R235); with a virtual source, the writes to physical memory are noted for
it from now on (R251), and in any case the writes that its reads are not ordered after, the outputs of a transform in progress among them (R179, R228). -/
def Queued (s t : State) (q : Command) (virt : Bool) : Prop :=
  t = { s.setCore s.issue.core { s.me with copyq := s.me.copyq ++ [{ q with tag := s.me.nextTag, behind := s.me.runningOutputs s.issue.core ++ s.me.openFor s.issue.core (engPath q.eng) }], nextTag := s.me.nextTag + 1 } with
    watch := if virt then ⟨s.issue.core, s.me.nextTag, []⟩ :: s.watch else s.watch }
/-- A command as it is queued: nothing of it is done (R235). -/
def fresh (s : State) (e : Eng) (help : Bool) (set : Vector Word 16) (dst src : Word) (n : Nat) : Command :=
  { tag := 0, eng := e, help := help, ctx := s.issue.ctx, set := set, dst := dst, src := src, n := n, sectors := 0, decs := 0, row := 0, rowOut := [], served := [],
    stopped := false, waiting := none, err := 0, dirty := [], behind := [] }
/-- A translation that the tables give an address of an address space, and that is the only one the die keeps of it (R278, R281). -/
def KeptOf (s : State) (d : DieId) (asid : BitVec 14) (va : Nat) (k : Kept) : Prop :=
  s.walk d asid va = .ok k ∧ (s.die d).tlb.filter (fun j => j.covers asid va) = [k]
/-- The handle entry that index `i` of a launch names (R284): its bytes lie in HBM of the core's die, at the places `a` of the first and `b` of the last. -/
structure EntryAt (s : State) (l : Launch) (d : DieId) (i : Nat) (k k' : Kept) (a b : Nat) : Prop where
  index : i < l.hcount
  inHbm : k.cls = .hbm ∧ k'.cls = .hbm
  ofDie : s.homeDie (k.paOf ((l.htab.toNat + 32 * i) % 2 ^ 64)) = d ∧ s.homeDie (k'.paOf ((l.htab.toNat + 32 * i) % 2 ^ 64 + 31)) = d
  assigned : s.assigned (k.paOf ((l.htab.toNat + 32 * i) % 2 ^ 64)) = true ∧ s.assigned (k'.paOf ((l.htab.toNat + 32 * i) % 2 ^ 64 + 31)) = true
  first : a = s.localPa (k.paOf ((l.htab.toNat + 32 * i) % 2 ^ 64))
  last : b = s.localPa (k'.paOf ((l.htab.toNat + 32 * i) % 2 ^ 64 + 31))
/-- An engine's command that may take a step: it is not stopped, waits for no other package, and its core is not frozen (R6, R226). -/
structure Works (s : State) (c : CoreId) (tag : BitVec 32) (q : Command) : Prop where
  here : (s.core c).command tag = some q
  going : q.stopped = false
  running : (s.core c).halted = false
  noAck : (s.core c).awaitsAck tag = false
/-- A page-table entry that points to the table of the next level, in HBM (R278). -/
def PointsTo (s : State) (p r : Nat) : Prop := p / 2 ^ 62 % 4 = 2 ∧ p / 2 ^ 52 % 2 ^ 10 = 0 ∧ r = p / 2 ^ 16 % 2 ^ 36 * 2 ^ 16 ∧ s.localHbm r = true

/-- The image of a kind that bring-up loads is accepted (R402, R411). -/
def Boots (s : State) (kind : Nat) : Prop := ∃ i, acceptImage s.pkg.fw.minVer (Config.bootImage kind) = .ok i ∧ i.kind = kind

/-! ### Images -/

/-- What a core holds fits the parts of a group image (R370, R371): at most 64 arms a context, 512 commands, 32,768 entries of the buffer, and each channel
within the 256 KiB of channel storage. -/
structure ImageFits (s : State) (c : CoreId) : Prop where
  arms : ∀ x : CtxId, ((s.die c.die).arms.filter fun a => a.core == c && a.ctx == x && a.saved.isNone).length ≤ 64
  commands : (s.core c).copyq.length ≤ 512
  buffer : (s.core c).mitten.length ≤ 32768
  channels : ∀ l ∈ (s.die c.die).launches, ∀ h ∈ l.chans, h.off + (chanPiece h).2.length ≤ 0x40000

/-! ### Collectives -/

/-- A collective instruction whose checks of R387 (R393) all pass: its descriptor lies aligned in the scratchpad, and what is read there names an active
group that the issuing core belongs to. -/
structure CollReady (s : State) (a off : Word) (reduce : Bool) (v : Vector Word 4) (g : GroupCopy) : Prop where
  unguarded : s.my.grd = false
  place : a.toNat % 32 = 0 ∧ a.toNat + 32 ≤ 0x200000
  current : Current s .core s.issue.core a.toNat 32
  clean : s.poisonAt (spadBase s.issue.core + a.toNat) 32 = none
  words : ∀ i : Fin 4, v[i] = BitVec.ofNat 64 (Memory.read s.mem (spadBase s.issue.core + (a.toNat + 8 * i.val)) 8)
  barrier : v[3].getLsbD 63 = true → v[3].toNat % 2 ^ 21 + 16 ≤ 0x200000
  fields : collOk v off.toNat reduce = true
  active : (s.die s.issue.core.die).group (collDesc v).gidx = some g
  board : (collDesc v).sben = true → (collDesc v).sbfirst + g.members.length ≤ 4096
  member : (s.rankOf g s.issue.core).isSome = true
/-- `u` is the state in which bytes of a collective have been put at an address of a member (R382, R388, R393): in this package, where all of it is assigned and
no poisoned unit is split, in a scratchpad or in other memory; to another package a packet goes. -/
def PutAt (s u : State) (g : GroupCopy) (m : Member) (launch : Option Nat) (bars : List Nat) (sb : Option (Nat × Nat)) (pa : Nat) (b : List Byte) : Prop :=
  b ≠ [] ∧
    (s.isOwn m = true → s.rangeAssigned pa b.length = true ∧ s.splitsPoison (s.localPa pa) b.length = false ∧
      (∀ (c : CoreId) (a : Nat), a < 0x200000 → s.localPa pa = 0x10000000000 + c.val * 0x200000 + a → u = s.deliverColl c launch bars sb a b) ∧
      ((s.localPa pa < 0x10000000000 ∨ 0x10040000000 ≤ s.localPa pa) → u = s.otherWrite (s.localPa pa) b)) ∧
    (s.isOwn m = false → u = s.sendGroup g b fun t b => .packet m.pkg pa (some t) b)
/-- The barriers and the bit that tell of a delivery of an operation at a member (R388). -/
def barsOf (o : CollOp) (m : Member) : List Nat := if (collDesc o.desc).ben && m.en then [m.bar] else []
def sbOf (s : State) (o : CollOp) (g : GroupCopy) : Option (Nat × Nat) :=
  if (collDesc o.desc).sben then some ((collDesc o.desc).sbidx, (collDesc o.desc).sbfirst + (s.rankOf g o.core).getD 0) else none
/-- `y` is element `e` of the canonical sum of the rows of ranks 0 to `p` - 1: each contribution is taken in the accumulation format, the first is the prefix, every
further one is added with one rounding, or the less or the greater is kept, in rank order, and the end is rounded once to the result format (R54, R388). -/
def SumIs (d : CollDesc) (p : Nat) (rows : Nat → VWord) (e y : Nat) : Prop :=
  let a := fpCode d.afmt
  let x (q : Nat) : Nat := (Fp.ofBits (fpCode d.ifmt) (elem (rows q) (fpCode d.ifmt).width e)).round a .rn
  ∃ r : Nat → Nat, r 0 = x 0 ∧ y = (Fp.ofBits a (r (p - 1))).round (fpCode d.ofmt) .rn ∧ ∀ q, q + 1 < p →
    (d.op = 0 → r (q + 1) = ((Fp.ofBits a (r q)).add (Fp.ofBits a (x (q + 1)))).round a .rn) ∧
    (d.op = 1 → r (q + 1) = fpMin a (r q) (x (q + 1))) ∧ (d.op = 2 → r (q + 1) = fpMax a (r q) (x (q + 1)))
/-- A packet of another package names an active group by its number and digest, authenticates if the group is sealed, and names a member of this package
(R294, R382, R383). -/
structure Names (s : State) (d : DieId) (gid : BitVec 32) (digest : Word) (genuine : Bool) (rank : Nat) (g : GroupCopy) (w : Vector Word 4) : Prop where
  active : ((s.die d).groups.find? fun g => g.gid == gid) = some g
  authentic : g.isSealed = true → genuine = true
  digests : g.digest = digest
  rank : g.members[rank]? = some w
  own : s.isOwn (memberOf w) = true

end Sys2Proof.Claims
end

