-- ==== Sys2Proof/Certificates/Slice0/Obligations.lean ====
section
/-!
DEFINITION. Sys2Proof/Certificates/Slice0/Obligations.lean: the statements for the provers. Each is about every state that meets its hypotheses; the
docstring names the rules of spec/ it rests on.
-/
open Sys2Proof Sys2Proof.Machine Sys2Proof.Claims

/-- At reset BOOTSTAT stands at step 1, not ready; every context is Free with %fmtn 0x05 and %lease 0x0040 (the values of placement, which the model chooses for reset: log entry 2); pattern 0 is the identity and patterns 1 to 7 hold 0x80 in every byte; every die has GAUNTLET 21, SVCLIM 1000, a forced-switch timeout (PFTO) of 50, and field current limits of 0x0690; queues are disabled with LSIZE 4 and PRIO 0; no trap record stands and no byte of memory is listed (chosen by the model: log entry 1) (R404, R41, R84, R298, R325, R355, R273, R17, R331; derived) -/
def Obligations.ResetState : Prop :=
  State.reset.pkg.step = 1 ∧ State.reset.pkg.ready = false ∧ State.reset.mem = [] ∧
  (∀ (c : CoreId) (x : CtxId), (State.reset.ctx c x).st = .free ∧ (State.reset.ctx c x).fmtn = 5 ∧ (State.reset.ctx c x).lease = 0x40) ∧
  (∀ (c : CoreId) (i : Nat), i < 64 → (State.reset.core c).patterns[0].extractLsb' (8 * i) 8 = BitVec.ofNat 8 i ∧
    ∀ n : Fin 8, n ≠ 0 → (State.reset.core c).patterns[n].extractLsb' (8 * i) 8 = 0x80) ∧
  (∀ d : DieId, (State.reset.die d).gauntLg = 21 ∧ (State.reset.die d).svclim = 1000 ∧ (State.reset.die d).pfto = 50 ∧
    (∀ f : Fin 4, (State.reset.die d).fields[f].lim = 0x0690) ∧ ∀ q : Fin 64, (State.reset.die d).queues[q].en = false ∧
      (State.reset.die d).queues[q].lsize = 4 ∧ (State.reset.die d).queues[q].prio = 0) ∧
  ∀ cl : ClusterId, (State.reset.trapQ cl).records = [] ∧ (State.reset.trapQ cl).head = 0 ∧ (State.reset.trapQ cl).tail = 0

/-- At reset the memory is in its canonical form and s0 holds zero in every context (R64, R182; derived) -/
def Obligations.ResetInvariants : Prop :=
  State.reset.memOk ∧ State.reset.zeroOk

/-- From every state whose memory is in canonical form (addresses strictly rising, no entry equal to what an unlisted address reads as), a step leads to one whose memory is (R182, R184; derived) -/
def Obligations.MemoryStaysCanonical : Prop :=
  ∀ s t : State, s.memOk → step s = .next t → t.memOk

/-- From every state in which s0 holds zero in every context of every core, a step leads to one in which it does (R64; derived) -/
def Obligations.RegisterZeroStays : Prop :=
  ∀ s t : State, s.zeroOk → step s = .next t → t.zeroOk

/-- For every well-formed slot or front-end instruction, with every operand at every value, the decoder reads the instruction from the word the encoder gives it, in the kind of slot the encoder names, and the word has 32 bits (R60, R61, R63, R64, R66, R73, R93, R117, R196, R352; derived) -/
def Obligations.DecodeOfEncode : Prop :=
  ∀ (i : Instr) (k : WordKind) (w : Nat), i.wf = true → encode i = some (k, w) → w < 2 ^ 32 ∧ decodeWord k w = .ok i

/-- One word of each slot kind, written out from the spec's fields, decodes to the instruction it stands for (R60, R61, R73, R352; derived) -/
def Obligations.DecodeWords : Prop :=
  decodeWord .a 0x0000A301 = .ok (.add .always 5 6 (.lit ⟨0, .i32⟩)) ∧
  decodeWord .b 0xC0000004 = .ok (.br .always 2) ∧
  decodeWord .k 0x5C00848A = .ok (.stxRel64 .always 4 9 .grp) ∧
  decodeWord .x 0xC0002100 = .ok (.vrcp .always false 1 (.reg 2)) ∧
  decodeWord .front 0x0005050B = .ok (.qfetch 10 10) ∧
  decodeWord .l 0x0A00E291 = .ok (.ldN32 .always 7 5 (.lit ⟨1, .i32⟩)) ∧
  decodeWord .v 0x02302106 = .ok (.vadd (.on 2 false) .f32 1 (.reg 2) (.src (.reg 3))) ∧
  decodeWord .e 0xA6000012 = .ok (.grdCheck .always (.reg 9)) ∧
  decodeWord .e 0xA8000001 = .ok (.fmtset .always (.lit ⟨0, .i32⟩)) ∧
  decodeWord .m 0x800000C1 = .ok (.mmaSd .always false 0 0 (.reg 12) true)

/-- A step whose agenda names an instruction is exec of it on the state without it; with no agenda, a front-end word of a hart that is not stalled decodes to the instruction that the step runs; and placing a word that the decoder reads in no slot makes the next step run it (R67, R352; derived) -/
def Obligations.StepRunsDecoded : Prop :=
  (∀ (s : State) (i : Instr) (r : List Instr), s.agenda = i :: r → step s = exec i { s with agenda := r, tick := s.tick + 1 }) ∧
  (∀ (s : State) (w : Word32) (r : List Word32) (i : Instr), s.agenda = [] → s.frontWords = w :: r →
    ((s.die s.hart.1).harts[s.hart.2]).stall = none → decodeWord .front w.toNat = .ok i →
    step s = exec i { s with frontWords := r, tick := s.tick + 1 }) ∧
  (∀ (s : State) (w : Nat) (i : Instr), decodeWord .front w = .ok i → w < 2 ^ 32 →
    ∃ t, t.agenda = [] ∧ t.frontWords = [] ∧ t.mem = s.mem ∧ t.cores = s.cores ∧ step (s.withFetchWord 32 w) = exec i t)

/-- For every slot instruction, what a bundle does for the slot is exec of the instruction (R67; derived) -/
def Obligations.SlotIsExec : Prop :=
  ∀ (i : Instr) (s : State), IsSlot i → slotMeaning i s = exec i s

/-- With its guard true, each arithmetic, division and shift slot completes and writes the low 64 bits of the exact integer that R94, R96 and R97 give for its operands, at the bound of its row, and does nothing else; with its guard true, each logic slot writes, bit by bit, the function of R94, and each rotate the operand turned by the low six bits of the count, with a bound of 1 (R94, R96, R97, R63; derived) -/
def Obligations.ArithmeticResults : Prop :=
  (∀ (s : State) (g : Guard) (d a : SReg) (b : Src), s.guard g = true →
    (∀ r ∈ arithmetic g d a b (s.opA a) (s.opB b), exec r.1 s = .next (s.writeS d r.2.1 (BitVec.ofInt 64 r.2.2))) ∧
    (∀ r ∈ division g d a b (s.opA a) (s.opB b), exec r.1 s = .next (s.writeS d 24 (BitVec.ofInt 64 r.2))) ∧
    (∀ r ∈ shifts g d a b (s.opA a) ((s.opB b).toNat % 64), exec r.1 s = .next (s.writeS d 1 (BitVec.ofInt 64 r.2)))) ∧
  ∀ (s : State) (g : Guard) (d a : SReg) (b : Src), s.guard g = true →
    (∀ r ∈ logic g d a b, ∃ v, exec r.1 s = .next (s.writeS d 1 v) ∧
      ∀ i < 64, v.getLsbD i = r.2 ((s.opA a).getLsbD i) ((s.opB b).getLsbD i)) ∧
    (∃ v, exec (.rol g d a b) s = .next (s.writeS d 1 v) ∧ ∀ i < 64, v.getLsbD ((i + (s.opB b).toNat % 64) % 64) = (s.opA a).getLsbD i) ∧
    ∃ v, exec (.ror g d a b) s = .next (s.writeS d 1 v) ∧ ∀ i < 64, v.getLsbD i = (s.opA a).getLsbD ((i + (s.opB b).toNat % 64) % 64)

/-- mulh (0x03) and mulh.n (0x04) write bits 127:64 of the exact signed and natural 128-bit products with a bound of 3, and with mul, which writes bits 63:0, they give the whole product (R95; stated) -/
def Obligations.MultiplyHigh : Prop :=
  ∀ (s : State) (g : Guard) (d a : SReg) (b : Src),
    Coded 0x03 [.a, .b] (.mulh g d a b) ∧ Coded 0x04 [.a, .b] (.mulhN g d a b) ∧
    (s.guard g = true → ∃ low high highN : Word,
      exec (.mul g d a b) s = .next (s.writeS d 3 low) ∧ exec (.mulh g d a b) s = .next (s.writeS d 3 high) ∧
      exec (.mulhN g d a b) s = .next (s.writeS d 3 highN) ∧
      high ++ low = BitVec.ofInt 128 ((s.opA a).toInt * (s.opB b).toInt) ∧ highN ++ low = BitVec.ofNat 128 ((s.opA a).toNat * (s.opB b).toNat))

/-- Each saturating sum (opcodes 0x27 to 0x2A, in slots A and B) writes the exact sum or difference clamped to the range of its type, with a bound of 1 (R98; stated) -/
def Obligations.SaturatingSums : Prop :=
  ∀ (s : State) (g : Guard) (d a : SReg) (b : Src), ∀ r ∈ saturating g d a b (s.opA a) (s.opB b),
    Coded r.1 [.a, .b] r.2.1 ∧ (s.guard g = true → exec r.2.1 s = .next (s.writeS d 1 (BitVec.ofInt 64 r.2.2)))

/-- lea.k (0x23 to 0x26 for k = 1, 2, 4, 8) writes x + y times k modulo 2^64 with a bound of 1 (R99; stated) -/
def Obligations.ScaledSums : Prop :=
  ∀ (s : State) (g : Guard) (d a : SReg) (b : Src), ∀ r ∈ leas g d a b, Coded r.1 [.a, .b] r.2.1 ∧
    (s.guard g = true → exec r.2.1 s = .next (s.writeS d 1 (BitVec.ofNat 64 ((s.opA a).toNat + (s.opB b).toNat * r.2.2))))

/-- clz, ctz and popc count as R100 says, the extensions and mov write the value R100 gives, and li its sign-extended immediate or its brim value, each with a bound of 1; bfx and bfx.n write the field of L = min(len, 64 - pos) bits at pos, sign- or zero-extended, bfi replaces that field and keeps the other bits of the old sD, and sel writes sA or OperandB by its condition; each with a bound of 1 (R100, R101, R63, R102, R103; derived) -/
def Obligations.UnaryAndFieldResults : Prop :=
  (∀ (s : State) (g : Guard) (d : SReg) (b : Src), s.guard g = true →
    (∀ r ∈ extensions g d b (s.opB b), exec r.1 s = .next (s.writeS d 1 (BitVec.ofInt 64 r.2))) ∧
    (∀ imm, exec (.liImm g d imm) s = .next (s.writeS d 1 (BitVec.ofInt 64 imm.toInt))) ∧
    (∀ l, exec (.liBrim g d l) s = .next (s.writeS d 1 (s.brimVal l))) ∧
    ∃ z t c : Nat, exec (.clz g d b) s = .next (s.writeS d 1 (BitVec.ofNat 64 z)) ∧ exec (.ctz g d b) s = .next (s.writeS d 1 (BitVec.ofNat 64 t)) ∧
      exec (.popc g d b) s = .next (s.writeS d 1 (BitVec.ofNat 64 c)) ∧ c = (List.range 64).countP (s.opB b).getLsbD ∧
      (if s.opB b = 0 then z = 64 ∧ t = 64
        else z < 64 ∧ (s.opB b).toNat / 2 ^ (63 - z) = 1 ∧ (s.opB b).getLsbD t = true ∧ ∀ i < t, (s.opB b).getLsbD i = false)) ∧
  ∀ (s : State) (g : Guard) (d a : SReg) (b : Src), ∀ pos len : Nat, pos = (s.opB b).toNat % 64 → len = min ((s.opB b).toNat / 256 % 128) (64 - pos) →
    (s.guard g = true →
      exec (.bfx g d a b) s = .next (s.writeS d 1 (BitVec.ofInt 64 ((((s.opA a).toNat / 2 ^ pos : Nat) : Int).bmod (2 ^ len)))) ∧
      exec (.bfxN g d a b) s = .next (s.writeS d 1 (BitVec.ofNat 64 ((s.opA a).toNat / 2 ^ pos % 2 ^ len))) ∧
      ∃ v, exec (.bfi g d a b) s = .next (s.writeS d 1 v) ∧
        ∀ i < 64, v.getLsbD i = if pos ≤ i ∧ i < pos + len then (s.opA a).getLsbD (i - pos) else (s.opD d).getLsbD i) ∧
    exec (.sel g d a b) s = .next (s.writeS d 1 (if s.guard g then s.opA a else s.opB b))

/-- With its guard true, each compare writes all 64 bits of its predicate with whether its relation holds between the signed or natural values, with a bound of 1 (R104, R63; derived) -/
def Obligations.CompareResults : Prop :=
  ∀ (s : State) (g : Guard) (d : PReg) (a : SReg) (b : Src), s.guard g = true → ∀ r ∈ compares g d a b (s.opA a) (s.opB b),
    ∃ v, exec r.1 s = .next (s.writeP d 1 v) ∧ ∀ i < 64, (v.getLsbD i = true ↔ r.2)

/-- pand, por, pxor and pandn (0x46 to 0x49, in slots A and B) write, on all 64 bits and with a bound of 1, the function of predicate a and of q, which is predicate b or the brim value (R105; stated) -/
def Obligations.PredicateLogic : Prop :=
  ∀ (s : State) (g : Guard) (d a : PReg) (b : PSrc), ∀ r ∈ predLogic g d a b, Coded r.1 [.a, .b] r.2.1 ∧
    (s.guard g = true → ∃ v, exec r.2.1 s = .next (s.writeP d 1 v) ∧
      ∀ i < 64, v.getLsbD i = r.2.2 ((s.readP a 0).getLsbD i) ((match b with | .reg q => s.readP q 1 | .lit l => s.brimVal l).getLsbD i))

/-- pfrom writes OperandB into a predicate, pto a predicate into a scalar, both with a bound of 1; rdsp writes a special register, whose unlisted bits read 0, with a bound of 2; wrsp to %tol, %rseed and %lease writes the register with a bound of 1, %lease at least 1 and from the low 16 bits, and to %rseed also makes %rpos 0; wrsp to %fmtn and fmtset make the value pending for the third committed bundle when it is a format, and raise FMTN_INVALID when its substitution or width code is reserved (R106, R85, R84, R63, R86, R270, R42, R43; derived) -/
def Obligations.PredicateAndSpecialMoves : Prop :=
  (∀ (s : State) (g : Guard), s.guard g = true →
    (∀ d b, exec (.pfrom g d b) s = .next (s.writeP d 1 (s.opB b))) ∧ (∀ d a, exec (.pto g d a) s = .next (s.writeS d 1 (s.readP a 0))) ∧
    (∀ d x, exec (.rdsp g d x) s = .next (s.writeS d 2 (s.readSpec x 0))) ∧
    (∀ x p, s.me.unsettled s.issue.ctx (.spec x) = false → (s.readSpec x p).toNat < 2 ^ specWidth x ∧
      (match x with
        | .ctx => (s.readSpec x p).toNat = s.my.grd.toNat * 16 + s.my.nm1.toNat * 4 + s.issue.ctx.val
        | .core => (s.readSpec x p).toNat = s.issue.core.val
        | .task => (s.readSpec x p).toNat = s.my.task.toNat
        | .dmem => s.readSpec x p = s.my.dmem
        | .fmtn => (s.readSpec x p).toNat = s.my.fmtn.toNat
        | .tol => s.readSpec x p = s.my.tol
        | .rseed => s.readSpec x p = s.my.rseed
        | .rpos => s.readSpec x p = s.my.rpos
        | .pts => s.readSpec x p = s.my.pts
        | .lease => (s.readSpec x p).toNat = s.my.lease.toNat))) ∧
  ∀ (s : State) (g : Guard) (b : Src), s.guard g = true →
    exec (.wrsp g .tol b) s = .next (s.writeSpec .tol 1 (s.opB b)) ∧
    exec (.wrsp g .rseed b) s = .next ((s.writeSpec .rseed 1 (s.opB b)).writeSpec .rpos 1 0) ∧
    (∃ v, exec (.wrsp g .lease b) s = .next (s.writeSpec .lease 1 v) ∧ v.toNat = max ((s.opB b).toNat % 65536) 1) ∧
    exec (.wrsp g .fmtn b) s = exec (.fmtset g b) s ∧
    (if (s.opB b).toNat / 2 % 4 = 3 ∨ (s.opB b).toNat / 8 % 4 = 3 then exec (.fmtset g b) s = .next (s.slotFault ⟨0x18, 0, 0⟩)
      else ∃ t, exec (.fmtset g b) s = .next t ∧ t = s.mapMy fun c => { c with fmtPend := c.fmtPend ++ [⟨(s.opB b).setWidth 5, 3⟩] })

/-- A scalar slot whose guard is false leaves the whole state as it is; so does an M slot whose accumulator its context owns, and a loop slot whose fields pass their checks (R63, R88, R111; derived) -/
def Obligations.GuardFalse : Prop :=
  (∀ (s : State) (i : Instr) (g : Guard), scalarGuard i = some g → s.guard g = false → exec i s = .next s) ∧
  (∀ (s : State) (i : Instr) (g : Guard) (acc : Fin 8), matrixGuard i = some (g, acc) → s.my.accMask.getLsbD acc.val = true → s.guard g = false →
    exec i s = .next s) ∧
  ∀ (s : State) (g : Guard) (off : BitVec 12) (b : Src), s.loopFault off = none → s.guard g = false → exec (.loop g off b) s = .next s

/-- RESULT_LANDING of a known, unpoisoned result that waits for no acquire of its bundle (R214) and that no later write has overtaken puts its value into the destination register, discards it for s0, and leaves every other register of every context of every core, the memory, the dies and the package as they were (R64, R68, R79, R214; derived) -/
def Obligations.LandingWritesOneRegister : Prop :=
  ∀ (s : State) (c : CoreId) (k : Nat) (e : InFlight) (v : VWord), (s.core c).inflight[k]? = some e → e.landed = false → e.dead = false → e.val = some v →
    e.poison = none → e.src = [] → ∃ t, exec (.resultLanding c k) s = .next t ∧ t.mem = s.mem ∧ t.die0 = s.die0 ∧ t.die1 = s.die1 ∧ t.pkg = s.pkg ∧ t.traps = s.traps ∧
      (∀ c', c' ≠ c → t.core c' = s.core c') ∧ (∀ x, x ≠ e.ctx → t.ctx c x = s.ctx c x) ∧
      (∀ r : SReg, (t.ctx c e.ctx).s[r] = if e.dest = .s r ∧ r ≠ 0 then v.setWidth 64 else (s.ctx c e.ctx).s[r]) ∧
      (∀ r : PReg, (t.ctx c e.ctx).p[r] = if e.dest = .p r then v.setWidth 64 else (s.ctx c e.ctx).p[r]) ∧
      (∀ r : VNum, (t.ctx c e.ctx).v[r] = if e.dest = .v r then v else (s.ctx c e.ctx).v[r]) ∧
      (∀ r : Fin 8, (t.ctx c e.ctx).sc[r] = if e.dest = .sc r then v.setWidth 512 else (s.ctx c e.ctx).sc[r]) ∧
      (t.ctx c e.ctx).tol = (if e.dest = .spec .tol then v.setWidth 64 else (s.ctx c e.ctx).tol) ∧
      (t.ctx c e.ctx).rseed = (if e.dest = .spec .rseed then v.setWidth 64 else (s.ctx c e.ctx).rseed) ∧
      (t.ctx c e.ctx).rpos = (if e.dest = .spec .rpos then v.setWidth 64 else (s.ctx c e.ctx).rpos) ∧
      (t.ctx c e.ctx).lease = (if e.dest = .spec .lease then v.setWidth 16 else (s.ctx c e.ctx).lease) ∧
      (t.ctx c e.ctx).pc = (s.ctx c e.ctx).pc ∧ (t.ctx c e.ctx).fmtn = (s.ctx c e.ctx).fmtn ∧ (t.core c).acc = (s.core c).acc

/-- s0 reads as zero; a settled scalar, predicate or vector reads as its register; an unsettled one as any value; and a brim reference as the value its shape makes of its words; a write to s0 changes nothing; a write to another scalar adds one result to those in flight in the issuing core, due its bound after the present cycle, and changes nothing else of the state: no register, no memory; with nothing in flight, a scalar written with bound b reads as its old value in the cycle of issue, as any value in the b - 1 cycles after it, and as the result from then on (R64, R66, R92, R6, R68, R67; derived) -/
def Obligations.OperandsAndResults : Prop :=
  (∀ (s : State) (p : Nat),
    s.readS 0 p = 0 ∧
    (∀ r : SReg, r ≠ 0 → s.readS r p = if s.me.unsettled s.issue.ctx (.s r) then Config.freeBits 64 s.tick (s.useNo p) else s.my.s[r]) ∧
    (∀ r : PReg, s.readP r p = if s.me.unsettled s.issue.ctx (.p r) then Config.freeBits 64 s.tick (s.useNo p) else s.my.p[r]) ∧
    (∀ r : VNum, s.readV r p = if s.me.unsettled s.issue.ctx (.v r) then Config.freeBits 2048 s.tick (s.useNo p) else s.my.v[r]) ∧
    ∀ i : Fin 8, ∀ w w1 : Word32, w = s.issue.brim.getD i.val 0 → w1 = s.issue.brim.getD (i.val + 1) 0 →
      (s.brimVal ⟨i, .i32⟩).toInt = w.toInt ∧ (s.brimVal ⟨i, .n32⟩).toNat = w.toNat ∧ (s.brimVal ⟨i, .w64⟩).toNat = w1.toNat * 2 ^ 32 + w.toNat ∧
      (s.brimVal ⟨i, .hi32⟩).toNat = w.toNat * 2 ^ 32 ∧ (s.brimVal ⟨i, .h16x4⟩).toNat = w.toNat % 2 ^ 16 * 0x0001000100010001 ∧
      (s.brimVal ⟨i, .b8x8⟩).toNat = w.toNat % 2 ^ 8 * 0x0101010101010101 ∧
      (s.brimVal ⟨i, .f32w⟩).toNat = (Fp.ofBits fp32 w.toNat).round fp64 .rn) ∧
  (∀ (s : State) (d : SReg) (bound : Nat) (v : Word), s.writeS 0 bound v = s ∧
    (d ≠ 0 → s.writeS d bound v = s.setCore s.issue.core { s.me with
      inflight := s.me.inflight ++ [⟨s.issue.ctx, .s d, s.me.cycle, s.me.cycle + bound, false, false, some (v.setWidth 2048), none, none, []⟩] })) ∧
  ∀ (s : State) (d : SReg) (bound j p : Nat) (v : Word), d ≠ 0 → 1 ≤ bound → s.me.inflight = [] →
    (s.writeS d bound v).readS d p = s.my.s[d] ∧
    (1 ≤ j → j < bound → ((s.writeS d bound v).mapMe fun k => { k with cycle := k.cycle + j }).readS d p = Config.freeBits 64 s.tick (s.useNo p)) ∧
    (bound ≤ j → (((s.writeS d bound v).mapMe fun k => { k with cycle := k.cycle + j }).landDue s.issue.core).readS d p = v)

/-- On a core that nothing keeps from issuing, a bundle that is fetched without an error of instruction memory, passes the checks on the bundle and on its slots, and neither blocks nor waits, runs its slots and commits in one BUNDLE_ISSUE (R67, R19, R5; derived) -/
def Obligations.BundleCommits : Prop :=
  ∀ (s : State) (c : CoreId) (x : CtxId) (cr : Crown) (ws : List Word32), Quiet s c x →
    let u := s.mapCore c fun k => k.enter x
    let v := u.openBundle c x cr ws
    let slots := (slotWords cr ws).filterMap fun w => w.get.map fun i => (slotNo w.kind, i)
    (u.core c).fetchBad x = false → (u.core c).fetch x = .ok (cr, ws) → v.bundleCheck cr (slotWords cr ws) = none → v.judge slots = .commit →
    exec (.bundleIssue c) s = .next (v.runSlots slots).commitBundle.closeBundle

/-- On such a core, whose units are idle and whose instruction memory holds no error, a marked two-word bundle that holds add of two registers leaves their sum in the destination register for the next cycle, every other scalar as it was, the PC two words further and the memory unchanged (R55, R57, R58, R67, R68, R94; derived) -/
def Obligations.AddBundle : Prop :=
  ∀ (s : State) (c : CoreId) (x : CtxId) (d a b : SReg) (w : Nat), Quiet s c x → d ≠ 0 → s.zeroOk →
    (s.core c).mtx = none → (s.core c).xft = none → (s.core c).patPend = [] → (s.core c).mitten = [] → (s.core c).mittenDrain = [] → (s.core c).imemBad = [] → (s.ctx c x).replay = none → (s.ctx c x).via = none →
    (s.ctx c x).loop.count = 0 → (s.ctx c x).grd = false → (s.ctx c x).pc.toNat = 4 * w → w + 1 < 65536 → w ∈ (s.core c).imap →
    (s.core c).iword w = (⟨1, 0, false⟩ : Crown).encode → encode (.add .always d a (.reg b)) = some (.a, ((s.core c).iword (w + 1)).toNat) →
    ∃ t, exec (.bundleIssue c) s = .next t ∧ t.mem = s.mem ∧ (t.ctx c x).pc = pcPlus (s.ctx c x).pc 2 ∧
      ∀ r : SReg, (t.ctx c x).s[r] = if r = d then (s.ctx c x).s[a] + (s.ctx c x).s[b] else (s.ctx c x).s[r]

/-- Under exec, every instruction and every event other than BUNDLE_ISSUE answers a next state from every state, faults included, which are traps taken; (step stops at one more place, outside exec: a Patante hart that meets a word of the instruction set outside the spec, log entry 16); BUNDLE_ISSUE does on every core that exists and is enabled: its cluster value is 0 to 5, its field is enabled and its CAPCORE bit is set; any other core index names nothing (R10, R11, R74, R357; derived) -/
def Obligations.NoOtherStops : Prop :=
  (∀ (s : State) (i : Instr), (∀ c, i ≠ .bundleIssue c) → ∃ t, exec i s = .next t) ∧
  (∀ (s : State) (c : CoreId), s.coreEnabled c = true → ∃ t, exec (.bundleIssue c) s = .next t) ∧
  ∀ (s : State) (c : CoreId), (6 ≤ c.val / 8 % 8 → s.coreEnabled c = false) ∧ (s.coreEnabled c = false → exec (.bundleIssue c) s = .fault .noSuchCore)

/-- With its guard true, each transfer that is taken notes its target in the bundle, which the commit makes the PC: br and call their offset from the crown in words, brc its offset or its absolute address when the scalar is nonzero or zero, jr its scalar and ret s63, with a mark where that register is unsettled; call also writes s63 with the address of the next bundle; an untaken brc does nothing (that the PC and the link wrap modulo 2^18 past the end of instruction memory, and the marks that tell how the PC was reached, are the model's readings: log entries 15 and 38); at the commit a taken transfer sets the PC to its target; otherwise a crown at endw with count above 0, in a bundle that installs no loop state, takes the back-edge to startw and count falls by one; otherwise the PC advances by the bundle's length (R107, R108, R109, R110, R63, R57, R112; derived) -/
def Obligations.ControlTransfers : Prop :=
  (∀ (s : State) (g : Guard), s.guard g = true →
    (∀ off, ∃ t, exec (.br g off) s = .next t ∧ t = s.jumpTo (BitVec.ofInt 64 (s.issue.pc.toNat + 4 * off.toInt))) ∧
    (∀ off, exec (.call g off) s = .next ((s.writeS 63 1 (BitVec.ofNat 64 (s.issue.pc.toNat + 4 * s.issue.len))).jumpTo
      (BitVec.ofInt 64 (s.issue.pc.toNat + 4 * off.toInt)))) ∧
    (∀ a off, exec (.brcNzOffset g a off) s = .next (if s.opA a = 0 then s else s.jumpTo (BitVec.ofInt 64 (s.issue.pc.toNat + 4 * off.toInt)))) ∧
    (∀ a off, exec (.brcZOffset g a off) s = .next (if s.opA a = 0 then s.jumpTo (BitVec.ofInt 64 (s.issue.pc.toNat + 4 * off.toInt)) else s)) ∧
    (∀ a l, exec (.brcNzAbs g a l) s = .next (if s.opA a = 0 then s else s.jumpTo (s.brimVal l))) ∧
    (∀ a l, exec (.brcZAbs g a l) s = .next (if s.opA a = 0 then s.jumpTo (s.brimVal l) else s)) ∧
    (∀ a : SReg, ∃ t, exec (.jr g a) s = .next t ∧ t = { s with issue := { s.issue with jump := some (s.opA a), jumpOpen := decide (a ≠ 0) && s.me.unsettled s.issue.ctx (.s a) } }) ∧
    (∃ t, exec (.ret g) s = .next t ∧ t = { s with issue := { s.issue with jump := some (s.opA 63), jumpOpen := s.me.unsettled s.issue.ctx (.s 63) } }) ∧
    ∀ target, s.jumpTo target = { s with issue := { s.issue with jump := some target } }) ∧
  ∀ (y : Ctx) (i : Issue),
    (∀ t, i.jump = some t → (y.goOn i).pc = t.setWidth 18 ∧ (y.goOn i).via = some ⟨i.pc, t, !i.jumpOpen⟩) ∧
    (i.jump = none → i.loopSet = none → y.loop.count ≠ 0 → y.loop.endw.toNat = i.pc.toNat / 4 →
      (y.goOn i).pc.toNat = 4 * y.loop.startw.toNat ∧ (y.goOn i).loop = ⟨y.loop.endw, y.loop.startw, y.loop.count - 1⟩) ∧
    (i.jump = none → i.loopSet ≠ none ∨ y.loop.count = 0 ∨ y.loop.endw.toNat ≠ i.pc.toNat / 4 →
      (y.goOn i).pc.toNat = (i.pc.toNat + 4 * i.len) % 2 ^ 18 ∧ (y.goOn i).loop = i.loopSet.getD y.loop) ∧
    (y.goOn i).s = y.s ∧ (y.goOn i).p = y.p ∧ (y.goOn i).v = y.v

/-- loop sets the loop state to its end, its start and N - 1; with N = 0 it clears the state and transfers past the end bundle; its clear form clears the state; an offset inside the loop bundle raises ILLEGAL_OP and an unmarked end BAD_TARGET, whatever the guard (by the model's reading of R63 and R111, log entry 29); done marks the bundle as the task's last; trap and sys note their code for the record that the commit places, with codes 0x01 and 0x02; trig waits for the covered accesses and then triggers the task in its launch, and has no effect in a surrogate task; grd.check notes a surrogate's verdict, pass when neither the operand nor %tol is a NaN and the operand's magnitude is at most %tol (infinities compare as their values, log entry 41), and has no effect elsewhere (R111, R63, R74, R113, R114, R115, R345, R350; derived) -/
def Obligations.LoopAndTaskSlots : Prop :=
  (∀ (s : State) (g : Guard) (off : BitVec 12) (b : Src), ∀ w n : Nat, w = s.issue.pc.toNat / 4 → n = (s.opB b).toNat % 2 ^ 32 →
    (off.toNat < s.issue.len → exec (.loop g off b) s = .next (s.slotFault ⟨0x0A, 0, 0⟩)) ∧
    (s.issue.len ≤ off.toNat → s.me.marked (w + off.toNat) = false → exec (.loop g off b) s = .next (s.slotFault ⟨0x09, 0, 0⟩)) ∧
    (s.issue.len ≤ off.toNat → s.me.marked (w + off.toNat) = true → s.guard g = true → 0 < n → exec (.loop g off b) s = .next
      { s with issue := { s.issue with loopSet := some ⟨BitVec.ofNat 16 (w + off.toNat), BitVec.ofNat 16 (w + s.issue.len), BitVec.ofNat 32 (n - 1)⟩ } }) ∧
    (s.issue.len ≤ off.toNat → s.me.marked (w + off.toNat) = true → s.guard g = true → n = 0 → exec (.loop g off b) s = .next
      { s with issue := { s.issue with loopSet := some ⟨0, 0, 0⟩, jump := some (BitVec.ofNat 64 (4 * (w + off.toNat + s.me.bundleLen (w + off.toNat)))) } }) ∧
    (s.guard g = true → exec (.loopClear g) s = .next { s with issue := { s.issue with loopSet := some ⟨0, 0, 0⟩ } })) ∧
  ∀ (s : State) (g : Guard), s.guard g = true →
    exec (.done g) s = .next { s with issue := { s.issue with retire := true } } ∧
    (s.my.grd = false → ∀ b, exec (.grdCheck g b) s = .next s) ∧
    (s.my.grd = true → ∀ b, ∀ r m : Fp, r = .ofBits fp64 (s.opB b).toNat → m = .ofBits fp64 (s.readSpec .tol 3).toNat →
      exec (.grdCheck g b) s = .next { s with issue := { s.issue with verdict := some (!r.isNan && !m.isNan && r.abs.le m) } }) ∧
    (∀ code, exec (.trap g code) s = .next { s with issue := { s.issue with trap := some (0x01, code) } }) ∧
    (∀ code, exec (.sys g code) s = .next { s with issue := { s.issue with trap := some (0x02, code) } }) ∧
    (s.my.grd = true → exec (.trig g) s = .next s) ∧
    (s.my.grd = false → s.unperformed .die = true → exec (.trig g) s = .next (s.wait .fence)) ∧
    (s.my.grd = false → s.unperformed .die = false → ∃ t, exec (.trig g) s = .next t ∧ t.mem = s.mem ∧ t.my.trigged = true ∧
      ∀ l ∈ (t.die s.issue.core.die).launches, some l.id = s.my.launch → s.my.task.toNat ∈ l.trigged)

/-- With its guard true and an aligned address within the 2 MiB, each scalar load completes and adds one in-flight result, due in 4 cycles, with the poison of its unit: where no write of another path is unordered with it (R228) and no transform in progress writes there (R179), the little-endian bytes of the core's scratchpad as they stand before the bundle, extended by its form; a result for s0 is discarded as it lands. It changes no memory; with its guard true, a scalar scratchpad load or store that reaches past the 2 MiB raises SCRATCH_RANGE (0x11), and one within it whose address is no multiple of its size MEM_ALIGN (0x20), on its slot and with its address as computed, by the model's reading of R356 (log entry 23), and stages nothing; a predicated-off one raises nothing (R198, R3, R184, R195, R63, R197, R74, R365; derived) -/
def Obligations.ScratchpadLoads : Prop :=
  (∀ (s : State) (g : Guard) (d a : SReg) (b : Src) (ad : Nat), s.guard g = true → ad = (s.opA a + s.opB b).toNat →
    ∀ r ∈ spadLoads g d a b, ad % r.2.2 = 0 → ad + r.2.2 ≤ 0x200000 →
      (∃ (v : VWord) (u : State), OnlyHeard s.issue.core s.issue.ctx s u ∧
        exec r.1 s = .next ((u.touch [ad]).writeLoad (.s d) 4 v (s.poisonAt (0x10000000000 + s.issue.core.val * 0x200000 + ad) r.2.2) [⟨0, 64, ad, r.2.2, r.2.1, 0, 0⟩]) ∧
        (u.touch [ad]).mem = s.mem ∧
        (Current s .core s.issue.core ad r.2.2 →
          v = (BitVec.ofInt 64 (loaded s.mem (0x10000000000 + s.issue.core.val * 0x200000 + ad) r.2.2 r.2.1)).setWidth 2048))) ∧
  ∀ (s : State) (g : Guard) (d a : SReg) (b : Src) (ad : Word), ad = s.opA a + s.opB b →
    ∀ r ∈ (spadLoads g d a b).map (fun r => (r.1, r.2.2)) ++ spadStores g d a b,
      (s.guard g = true → 0x200000 < ad.toNat + r.2 → exec r.1 s = .next (s.slotFault ⟨0x11, ad, 0⟩)) ∧
      (s.guard g = true → ad.toNat + r.2 ≤ 0x200000 → ad.toNat % r.2 ≠ 0 → exec r.1 s = .next (s.slotFault ⟨0x20, ad, 0⟩)) ∧
      (s.guard g = false → exec r.1 s = .next s)

/-- With its guard true and an aligned address within the 2 MiB, each scalar store completes and stages the low bytes of sD for that address of the core's scratchpad; memory and registers are unchanged until the bundle commits; at the commit of a bundle without an acquire, a staged scratchpad store of n bytes at address ad writes the little-endian bytes of its data at ad and up in the issuing core's scratchpad; every other byte of memory reads as before, no register and no die changes, and the memory stays canonical; in a bundle with an acquire it waits for the acquire (R214) (R198, R67, R63, R3, R184, R214; derived) -/
def Obligations.ScratchpadStores : Prop :=
  (∀ (s : State) (g : Guard) (d a : SReg) (b : Src) (ad : Nat), s.guard g = true → ad = (s.opA a + s.opB b).toNat →
    ∀ r ∈ spadStores g d a b, ad % r.2 = 0 → ad + r.2 ≤ 0x200000 → ∃ t, exec r.1 s = .next t ∧
      t.issue.stores = s.issue.stores ++ [.spad ad r.2 ((s.opD d).setWidth 2048)] ∧ t.mem = s.mem ∧ t.cores = s.cores) ∧
  ∀ (s : State) (ad n : Nat) (v : VWord), s.memOk →
    let t := s.applyStaged (.spad ad n v)
    let base := 0x10000000000 + s.issue.core.val * 0x200000 + ad
    (s.issue.acqWait ≠ [] → t = s.mapMe fun k => { k with heldStores := k.heldStores ++ [(s.issue.ctx, .spad ad n v)] }) ∧
    (s.issue.acqWait = [] → t.memOk ∧ (∀ i < n, (Memory.get t.mem (base + i)).toNat = v.toNat / 256 ^ i % 256) ∧
    (∀ p, p < base ∨ base + n ≤ p → Memory.get t.mem p = Memory.get s.mem p) ∧
    (∀ c x, t.ctx c x = s.ctx c x) ∧ t.die0 = s.die0 ∧ t.die1 = s.die1 ∧ t.pkg = s.pkg ∧ t.traps = s.traps)

/-- A fault of a slot, with a free place in the trap queue of its cluster, places one record at the queue's end: core, context, the slot's bit in the mask, src 0, the code, the bundle's PC, the next bundle's, address and info; the core is frozen on it; no memory, register, die or other queue changes; while a new handler waits for its commit point the record is counted as one for it (R416). With no free place the core waits for one, frozen, and the queue is unchanged (R74, R356, R357, R358, R235, R416; derived) -/
def Obligations.SlotFaultRecord : Prop :=
  ∀ (s : State) (f : Flt),
    let t := s.slotFault f
    let q := s.trapQ s.issue.core.cluster
    let r : Record := ⟨q.seq, s.issue.core, s.issue.ctx, 1#8 <<< s.issue.slot.val, 0, BitVec.ofNat 8 f.code, pcPlus s.issue.pc s.issue.len, s.issue.pc, f.addr, f.info⟩
    t.mem = s.mem ∧ (∀ c x, t.ctx c x = s.ctx c x) ∧ t.die0 = s.die0 ∧ t.die1 = s.die1 ∧ t.pkg = s.pkg ∧ (∀ c, c ≠ s.issue.core → t.core c = s.core c) ∧
    (∀ cl, cl ≠ s.issue.core.cluster → t.trapQ cl = s.trapQ cl) ∧ t.issue = { s.issue with faults := [⟨s.issue.slot, BitVec.ofNat 8 f.code, f.addr, f.info⟩] } ∧
    (q.records.length < 32 → t.trapQ s.issue.core.cluster = { q with
        records := q.records ++ [r], late := q.late + (if s.pkg.fw.waitHandler then 1 else 0), seq := q.seq + 1, tail := q.tail + 1 } ∧
      (t.core s.issue.core).record = some ⟨r, true, s.issue.words⟩) ∧
    (32 ≤ q.records.length → t.trapQ s.issue.core.cluster = q ∧ ∃ r', (t.core s.issue.core).record = some ⟨r', false, s.issue.words⟩)

/-- When every active element lies within the scratchpad and is aligned, ldv and ldg complete and land, in the active elements of vD, the bytes at sA + l times the stride or at sA + off[l], as they stand where no unordered write or transform meets them (R179, R228), due in 4 or 8 cycles, and keep the others; stv and stg stage each active element at its address, ascending; scld lands 64 bytes in a scale register in 6 cycles. None changes memory or a register at once; the loads change besides at most what the context has heard of releases (R222) (R199, R200, R201, R197, R118; derived) -/
def Obligations.VectorScratchpad : Prop :=
  ∀ (s : State) (g : Guard) (a : SReg) (b : Src) (i : VSrc) (d : VNum) (c : Fin 8) (n base : Nat) (at1 at2 : Nat → Nat),
    n = (if (s.opB b).getLsbD 32 then 8 else 4) → base = 0x10000000000 + s.issue.core.val * 0x200000 →
    (∀ l, at1 l = (s.opA a + (((s.opB b).setWidth 32).signExtend 64) * BitVec.ofNat 64 l).toNat) → (∀ l, at2 l = (s.opA a + BitVec.ofNat 64 (elem (s.vsrc i 1 0 32) 32 l)).toNat) →
    ((s.opB b).toNat % n = 0 → (∀ l < 256 / n, (s.active g).getLsbD l = true → at1 l % n = 0 ∧ at1 l + n ≤ 0x200000) →
      (∃ ad v p u, OnlyHeard s.issue.core s.issue.ctx s u ∧ exec (.ldv g d a b) s = .next (((u.touch ad).writeLoad (.v d) 4 v p
          (((List.range (256 / n)).filter fun l => (s.active g).getLsbD l).map fun l => ⟨8 * n * l, 8 * n, at1 l, n, false, 0, 0⟩)).addPops 0) ∧ ∀ l < 256 / n,
        ((s.active g).getLsbD l = true → Current s .core s.issue.core (at1 l) n → (elem v (8 * n) l : Int) = loaded s.mem (base + at1 l) n false) ∧
        ((s.active g).getLsbD l = false → elem v (8 * n) l = elem (s.readV d 2) (8 * n) l)) ∧
      ∃ t, exec (.stv g d a b) s = .next t ∧ t.mem = s.mem ∧ t.cores = s.cores ∧ t.issue.stores = s.issue.stores ++
        ((List.range (256 / n)).filter fun l => (s.active g).getLsbD l).map fun l => .spad (at1 l) n (BitVec.ofNat 2048 (elem (s.readV d 2) (8 * n) l))) ∧
    ((∀ l < 64, (s.active g).getLsbD l = true → at2 l % 4 = 0 ∧ at2 l + 4 ≤ 0x200000) →
      (∃ ad v p u, OnlyHeard s.issue.core s.issue.ctx s u ∧ exec (.ldg g d a i) s = .next (((u.touch ad).writeLoad (.v d) 8 v p
          (((List.range 64).filter fun l => (s.active g).getLsbD l).map fun l => ⟨32 * l, 32, at2 l, 4, false, 0, 0⟩)).addPops (srcPops i)) ∧ ∀ l < 64,
        ((s.active g).getLsbD l = true → Current s .core s.issue.core (at2 l) 4 → (elem v 32 l : Int) = loaded s.mem (base + at2 l) 4 false) ∧
        ((s.active g).getLsbD l = false → elem v 32 l = elem (s.readV d 2) 32 l)) ∧
      ∃ t, exec (.stg g d a i) s = .next t ∧ t.mem = s.mem ∧ t.cores = s.cores ∧ t.issue.stores = s.issue.stores ++
        ((List.range 64).filter fun l => (s.active g).getLsbD l).map fun l => .spad (at2 l) 4 (BitVec.ofNat 2048 (elem (s.readV d 2) 32 l))) ∧
    (s.guard g = true → (s.opA a + s.opB b).toNat % 64 = 0 → (s.opA a + s.opB b).toNat + 64 ≤ 0x200000 → ∃ v p u, OnlyHeard s.issue.core s.issue.ctx s u ∧ exec (.scld g c a b) s =
        .next ((u.touch [(s.opA a + s.opB b).toNat]).writeLoad (.sc c) 6 v p [⟨0, 512, (s.opA a + s.opB b).toNat, 64, false, 0, 0⟩]) ∧
        (Current s .core s.issue.core (s.opA a + s.opB b).toNat 64 → (v.toNat : Int) = loaded s.mem (base + (s.opA a + s.opB b).toNat) 64 false))

/-- With its guard true and an address that the tables map, aligned to the form's size and assigned, each of the seven global loads and four global stores, and each acquire and release form, completes: a load issues the access that its scalar awaits, due in 1,024 cycles, or takes the bytes of the core's own scratchpad; a store to a page that is not sealed issues an access, stages the bytes for the own scratchpad, or, under a guard, for the task's buffer; the acquire and release forms take the address in sA alone, an acquire is awaited before any later bundle and synchronises with the releases whose values it reads, and a release completes once no access of earlier bundles that its scope covers is still to be performed or acknowledged, and freezes the core before (R202, R197, R205, R206, R211, R203, R221, R222, R63; derived) -/
def Obligations.GlobalLoadsAndStores : Prop :=
  ∀ (s : State) (g : Guard) (d a : SReg) (b : Src) (sc : Scope) (va ta : Word) (k : Kept), s.guard g = true → va = s.opA a + s.opB b → ta = s.opA a →
    (∀ r ∈ globalLoads g d a b, Accessible s va r.2.2 k → Loads s r.1 r.2.1 r.2.2 (physOf s va k) k d none) ∧
    (∀ r ∈ globalStores g d a b, Accessible s va r.2 k → k.isSealed = false → Stores s r.1 r.2 (physOf s va k) k (s.opD d) none) ∧
    (∀ r ∈ [(Instr.ldxAcq32 g d a sc, 4), (Instr.ldxAcq64 g d a sc, 8)], Accessible s ta r.2 k →
      Loads s r.1 false r.2 (physOf s ta k) k d (some sc)) ∧
    (∀ r ∈ [(Instr.stxRel32 g d a sc, 4), (Instr.stxRel64 g d a sc, 8)], Accessible s ta r.2 k → k.isSealed = false →
      (s.unperformed sc = true → exec r.1 s = .next (s.wait .fence)) ∧
      (s.unperformed sc = false → Stores s r.1 r.2 (physOf s ta k) k (s.opD d) (some sc)))

/-- An address of 2^55 or more fails with VA_RANGE (0x21), then one that is no multiple of the size with MEM_ALIGN (0x20); a translation is the one that the die keeps, or that of the walk the bundle has waited for, whose failure is the slot's fault; with neither the slot stops for a walk, and the core freezes on it; after a translation, a class that does not permit the instruction gives CLASS_REFUSED (0x25), a store to a sealed page SEALED_WRITE (0x26), and an unassigned physical address PA_UNMAPPED (0x27) with that address (R197, R278, R206, R186; derived) -/
def Obligations.TranslationChecks : Prop :=
  ∀ (s : State) (va : Word) (n : Nat) (ok : MemClass → Bool) (wr : Bool) (k : Kept),
    (2 ^ 55 ≤ va.toNat → s.globalCheck va n ok wr = .error ⟨0x21, va, 0⟩) ∧
    (va.toNat < 2 ^ 55 → va.toNat % n ≠ 0 → s.globalCheck va n ok wr = .error ⟨0x20, va, 0⟩) ∧
    (va.toNat < 2 ^ 55 → va.toNat % n = 0 → s.slotTranslate va.toNat (s.useNo 32) = .ok k →
      s.globalCheck va n ok wr =
        if ok k.cls = false then .error ⟨0x25, va, 0⟩
        else if wr = true ∧ k.isSealed = true then .error ⟨0x26, va, 0⟩
        else if s.assigned (k.paOf va.toNat) = false then .error ⟨0x27, BitVec.ofNat 64 (k.paOf va.toNat), 0⟩
        else .ok (s.localPa (k.paOf va.toNat), k)) ∧
    (Mapped s va k → s.slotTranslate va.toNat (s.useNo 32) = .ok k) ∧
    (s.issue.noWalk = false → ∀ w, s.walkedFor va.toNat = some w →
      (w.kept = some k → s.slotTranslate va.toNat (s.useNo 32) = .ok k) ∧
      (w.kept = none → s.slotTranslate va.toNat (s.useNo 32) = .error ⟨w.code, va, BitVec.ofNat 64 w.level⟩)) ∧
    (s.issue.noWalk = false → s.walkedFor va.toNat = none → (s.die s.issue.core.die).tlb.filter (fun j => j.covers s.asid va.toNat) = [] →
      s.slotTranslate va.toNat (s.useNo 32) = .error ⟨0x100, va, 0⟩ ∧
      s.slotStop ⟨0x100, va, 0⟩ = { s with issue := { s.issue with waits := some .walk, walks := s.issue.walks ++ [va.toNat] } })

/-- With its guard true, outside a guard, with an aligned, mapped and assigned address of a class that permits it, on a page that is not sealed, each atomic completes: it issues its access with operand and compare value and awaits the old value; each near-bank operation issues one access of 256 bytes with vD under its lane mask, and sig and sig.max an 8-byte update once the covered accesses are performed; a task under a guard gets GUARD_FORBIDDEN (0x28); with no access of its context outstanding, wsig completes when the word that it reads has reached the operand, keeps then no lease copy that is older than a write it must see, and freezes the core before; outside a guard that word is the one that stands at its home, unless it is poisoned (that a sig is an access whose value goes nowhere and that wsig reads the word once each period are readings of this model: log entries 40 and 87) (R208, R209, R207, R187, R347, R63; derived) -/
def Obligations.AtomicsAndNearBank : Prop :=
  ∀ (s : State) (g : Guard) (d a : SReg) (v : VNum) (b : Src) (va ta : Word) (k : Kept), va = s.opA a + s.opB b → ta = s.opA a →
    (s.guard g = true → s.my.grd = false → k.isSealed = false →
      (∀ r ∈ atomics g d a b, Accessible s ta r.2.2 k → k.cls ∈ [MemClass.hbm, .tier, .remote] →
        Issues s r.1 (.amo r.2.1) r.2.2 (physOf s ta k) k ((s.opB b).setWidth 2048) (s.opD d) 0 none none (some d)) ∧
      (∀ r ∈ [(Instr.sig g a b, AmoOp.add), (Instr.sigMax g a b, AmoOp.umax)], Accessible s ta 8 k → k.cls ∈ [MemClass.hbm, .tier] →
        (s.unperformed .pkg = true → exec r.1 s = .next (s.wait .fence)) ∧
        (s.unperformed .pkg = false → Issues s r.1 (.amo r.2) 8 (physOf s ta k) k ((s.opB b).setWidth 2048) 0 0 none (some .pkg) none))) ∧
    (s.my.grd = false → k.isSealed = false → ∀ r ∈ nearBank g v a b, Accessible s va 256 k → k.cls ∈ [MemClass.hbm, .tier] →
      Issues s r.1 (.nbop r.2) 256 (physOf s va k) k (s.readV v 2) 0 (s.active g) none none none) ∧
    (s.guard g = true → s.my.grd = true → (∀ r ∈ atomics g d a b, exec r.1 s = .next (s.slotFault ⟨0x28, 0, 0⟩)) ∧
      ∀ i ∈ [Instr.sig g a b, .sigMax g a b], exec i s = .next (s.slotFault ⟨0x28, 0, 0⟩)) ∧
    (s.my.grd = true → ∀ r ∈ nearBank g v a b, exec r.1 s = .next (s.slotFault ⟨0x28, 0, 0⟩)) ∧
    (s.guard g = true → Accessible s ta 8 k → k.cls ∈ [MemClass.hbm, .tier] → (∀ e ∈ s.me.accesses, e.ctx ≠ s.issue.ctx) →
      ∃ w : Word, (s.my.grd = false → s.poisonAt (physOf s ta k) 8 = none → w.toNat = s.memRead (physOf s ta k) 8) ∧
        ((s.opB b).toNat ≤ w.toNat → ∃ u, exec (.wsig g a b) s = .next u ∧ u.mem = s.mem ∧ u.issue = s.issue ∧ NoStale u s.issue.core false ∧
          (s.poisonAt (physOf s ta k) 8 = none → u.me.inflight = s.me.inflight) ∧
          ∀ c x, (u.ctx c x).s = (s.ctx c x).s ∧ (u.ctx c x).p = (s.ctx c x).p ∧ (u.ctx c x).v = (s.ctx c x).v) ∧
        (w.toNat < (s.opB b).toNat → exec (.wsig g a b) s = .next (s.wait .wsig)))

/-- With its guard true, fence completes when every access its scope covers is performed, and acknowledged where the scope asks for it, and waits otherwise; after it the core keeps no lease copy older than a write that it must see (R222), each later store of the context is a release at its scope of what came before it, the loads before it are acquires of the releases that they found (R221), and nothing else changes; fence.io completes when no store of the context is open, outside a guard; xfence waits for the accesses of its producer mask's CORE and NB bits and for the matrix unit by its MTX bit, all at the same time, and then orders the context's own writes before the reads of the consumer paths, the core's loads of lines that another writer has changed among them. None changes memory or a register (R220, R221, R224, R225, R226, R63; derived) -/
def Obligations.Fences : Prop :=
  ∀ (s : State) (g : Guard) (sc : Scope) (p q : BitVec 6), s.guard g = true →
    (s.unperformed sc = true → exec (.fence g sc) s = .next (s.wait .fence)) ∧
    (s.unperformed sc = false → ∃ t u, exec (.fence g sc) s = .next u ∧ NoStale u s.issue.core true ∧ (t = s.mapMe fun k => { k with copies := u.me.copies }) ∧
      u = (t.mapMy fun y => { y with sync := u.my.sync }) ∧ (scopeCode sc, s.tick) ∈ u.my.sync.rels ∧ u.my.sync.half = s.my.sync.half ∧
      ∀ h ∈ s.my.sync.half, ∃ g ∈ u.my.sync.heard, { g with acc := h.acc } = { h with acq := scopeCode sc }) ∧
    (s.my.grd = false → (∀ a ∈ s.me.accesses, a.ctx = s.issue.ctx → isStore a.kind = true → a.isOpen = false) → exec (.fenceIo g) s = .next s) ∧
    (s.my.grd = false → (∃ a ∈ s.me.accesses, a.ctx = s.issue.ctx ∧ isStore a.kind = true ∧ a.isOpen = true) → exec (.fenceIo g) s = .next (s.wait .fence)) ∧
    (s.my.grd = true → exec (.fenceIo g) s = .next (s.slotFault ⟨0x28, 0, 0⟩)) ∧
    ((∀ a ∈ s.me.accesses, a.ctx = s.issue.ctx → a.isOpen = false) → s.me.mtx = none → ∃ t, exec (.xfence g p q) s = .next t ∧ t.mem = s.mem ∧
      (∀ c x, t.ctx c x = s.ctx c x) ∧ t.me.inflight = s.me.inflight ∧ t.me.accesses = s.me.accesses ∧ t.issue = s.issue ∧
      (q.getLsbD 0 = true → NoStale t s.issue.core false) ∧ (p.getLsbD 0 = true → ∀ r ∈ t.me.recent, r.path = .core → r.ctx = s.issue.ctx → r.left &&& q = 0)) ∧
    ((∀ a ∈ s.me.accesses, a.ctx = s.issue.ctx → a.isOpen = false) → s.me.mtx ≠ none → p.getLsbD 2 = true → exec (.xfence g p q) s = .next (s.wait .matrix)) ∧
    (((∃ a ∈ s.me.accesses, a.ctx = s.issue.ctx ∧ isNb a.kind = false ∧ a.isOpen = true) ∧ p.getLsbD 0 = true) ∨
        ((∃ a ∈ s.me.accesses, a.ctx = s.issue.ctx ∧ isNb a.kind = true ∧ a.performed = false) ∧ p.getLsbD 5 = true) →
      exec (.xfence g p q) s = .next (s.wait (if p.getLsbD 2 = true ∧ s.me.mtx ≠ none then .fenceMatrix else .fence)))

/-- In the integer columns vadd, vsub, vmul, vmin, vmax and the saturating sums complete and land, in every active lane, the exact result modulo 2^w, or clamped to the column's range, by the bound of R73, and so do the shifts by the low 5 or 6 bits of the count; every other lane keeps its old element (R81, R116, R118, R120, R122, R123, R128, R40; derived) -/
def Obligations.VectorIntegerLanes : Prop :=
  ∀ (s : State) (g : Guard) (d : VNum) (a : VSrc) (b : VOp),
    (∀ f : VFmt, f.isFloat = false → ∀ r ∈ intLanes g f d a b (colValue f), LandsLanes s r.1 g d (laneW f) (laneW f) r.2.1 (srcPops a + opPops b)
      fun l => r.2.2 (laneA s a (laneW f) l) (laneB s a b (laneW f) l)) ∧
    (∀ f : IFmt, ∀ lo hi : Int, (lo, hi) = (if isSigned (ifCol f) then (-2 ^ (laneW (ifCol f) - 1), 2 ^ (laneW (ifCol f) - 1) - 1) else (0, 2 ^ laneW (ifCol f) - 1)) →
      LandsLanes s (.vaddS g f d a b) g d (laneW (ifCol f)) (laneW (ifCol f)) 2 (srcPops a + opPops b)
        (fun l => max lo (min hi (colValue (ifCol f) (laneA s a (laneW (ifCol f)) l) + colValue (ifCol f) (laneB s a b (laneW (ifCol f)) l)))) ∧
      LandsLanes s (.vsubS g f d a b) g d (laneW (ifCol f)) (laneW (ifCol f)) 2 (srcPops a + opPops b)
        (fun l => max lo (min hi (colValue (ifCol f) (laneA s a (laneW (ifCol f)) l) - colValue (ifCol f) (laneB s a b (laneW (ifCol f)) l))))) ∧
    ∀ wide : Bool, ∀ w : Nat, w = (if wide then 64 else 32) → ∀ r ∈ vectorShifts g wide d a b w, LandsLanes s r.1 g d w w 1 (srcPops a + opPops b)
      fun l => r.2 (laneA s a w l) (laneB s a b w l % w)

/-- In the float columns vadd, vsub, vmul and vfma land the exact value rounded once, vmin and vmax the minimum and maximum, the special functions and both halves of vsincos the function of the element rounded once, vcmul the complex product, and vlrec the step of its recurrence, each in the active elements; every other element keeps its own bits, and a 16-bit column's lane is zero above them; how near the value of a special function its enclosures lie is the model's reading (log entry 11) (R116, R118, R120, R121, R122, R125, R126, R136, R137; derived) -/
def Obligations.VectorFloatLanes : Prop :=
  ∀ (s : State) (g : Guard) (d : VNum) (a : VSrc) (b : VOp),
    (∀ (f : VFmt) (p : FpFmt), fpOf f = some p → ∀ r ∈ floatLanes g f d a b, LandsLanes s r.1 g d (laneW f) (elemBits f) (if f = .f64 then 6 else 5) (srcPops a + opPops b)
      fun l => (r.2 (.ofBits p (laneA s a (laneW f) l)) (.ofBits p (laneB s a b (laneW f) l))).round p .rn) ∧
    (∀ (f : VFmt) (p : FpFmt), fpOf f = some p → LandsLanes s (.vmin g f d a b) g d (laneW f) (elemBits f) 2 (srcPops a + opPops b)
        (fun l => fpMin p (laneA s a (laneW f) l % 2 ^ elemBits f) (laneB s a b (laneW f) l % 2 ^ elemBits f)) ∧
      LandsLanes s (.vmax g f d a b) g d (laneW f) (elemBits f) 2 (srcPops a + opPops b)
        (fun l => fpMax p (laneA s a (laneW f) l % 2 ^ elemBits f) (laneB s a b (laneW f) l % 2 ^ elemBits f))) ∧
    (∀ (f : FFmt) (p : FpFmt), fpOf (ffCol f) = some p → LandsLanes s (.vfma g f d a b) g d (laneW (ffCol f)) (elemBits (ffCol f)) (if f = .f64 then 6 else 5) (srcPops a + opPops b)
      fun l => fpFma p (laneA s a (laneW (ffCol f)) l) (laneB s a b (laneW (ffCol f)) l) (elem (s.readV d 3) (laneW (ffCol f)) l)) ∧
    (∀ (wide : Bool) (p : FpFmt), p = (if wide then fp64 else fp32) → (∀ r ∈ specials g wide d a, LandsLanes s r.1 g d p.width p.width 12 (srcPops a)
        fun l => (r.2 (.ofBits p (laneA s a p.width l))).round p .rn) ∧
      ∃ si co, exec (.vsincos g wide d a) s = .next (((s.writeV d 12 si).writeV ⟨(d.val + 1) % 32, Nat.mod_lt _ (Nat.succ_pos 31)⟩ 12 co).addPops (srcPops a)) ∧
        ∀ l < 2048 / p.width, (s.active g).getLsbD l = true →
          elem si p.width l = (fpSinPi (.ofBits p (laneA s a p.width l))).round p .rn % 2 ^ p.width ∧
          elem co p.width l = (fpCosPi (.ofBits p (laneA s a p.width l))).round p .rn % 2 ^ p.width) ∧
    (LandsLanes s (.vcmulC32 g d a b) g d 64 64 7 (srcPops a + opPops b) fun l => complexMul fp32 (laneA s a 64 l) (laneB s a b 64 l)) ∧
    (∀ y : VSrc, LandsLanes s (.vcmulC64 g d a y) g d 128 128 8 (srcPops a + srcPops y)
      fun l => complexMul fp64 (elem (s.vsrc a 0 0 64) 128 l) (elem (s.vsrc y 1 (srcPops a) 64) 128 l)) ∧
    ∀ (single : Bool) (p : FpFmt) (x y x1 y1 : VNum), p = (if single then fp32 else fp64) → x1.val = (x.val + 1) % 32 → y1.val = (y.val + 1) % 32 →
      LandsLanes s (.vlrec g single d x y) g d p.width p.width (if single then 5 else 6) 0
        fun l => fpFma p (elem (s.readV y 6) p.width l) (fpMul p (elem (s.readV x1 5) p.width l) (elem (s.readV x 4) p.width l))
          (fpMul p (elem (s.readV y1 7) p.width l) (elem (s.readV d 3) p.width l))

/-- vand, vor, vxor and vandn (0x50 to 0x53) land, by a bound of 1, the function of R127 of each bit of every 32-bit lane that the predicate selects; the other lanes keep their bits (R127; stated) -/
def Obligations.VectorLogic : Prop :=
  ∀ (s : State) (g : Guard) (d : VNum) (a : VSrc) (b : VOp), ∀ r ∈ vectorLogic g d a b, Coded r.1 [.v, .x] r.2.1 ∧
    ∃ v, exec r.2.1 s = .next ((s.writeV d 1 v).addPops (srcPops a + opPops b)) ∧ ∀ i < 2048, v.getLsbD i =
      if (s.active g).getLsbD (i / 32) then r.2.2 ((s.vsrc a 0 0 32).getLsbD i) ((s.vop b 1 (srcPops a) 32).getLsbD i) else (s.readV d 2).getLsbD i

/-- A vector compare writes bit l of its predicate with the relation of element l where active, the old bit elsewhere, and 0 above the lanes; vsel chooses per lane, vshuf takes the lane its index names or 0, vbcast copies a scalar; vcvt, vunpack, vpack and vred land what R132 to R135 give: the relations, the rounding and clamping of conversions, the blocks and codes of packed rows and the canonical order of reductions are stated as those rules give them (R118, R124, R129, R130, R131, R132, R133, R134, R135; derived) -/
def Obligations.VectorMovesAndCompares : Prop :=
  ∀ (s : State) (g : Guard) (d : VNum) (a : VSrc) (b : VOp),
    (∀ (q : PReg) (f : VFmt), ∃ v e : Word, exec (.vcmpLt g f q a b) s = .next ((s.writeP q 2 v).addPops (srcPops a + opPops b)) ∧
      exec (.vcmpEq g f q a b) s = .next ((s.writeP q 2 e).addPops (srcPops a + opPops b)) ∧
      ∀ l < 64, v.getLsbD l = (if 2048 / laneW f ≤ l then false
          else if (s.active g).getLsbD l then relLt f (laneA s a (laneW f) l) (laneB s a b (laneW f) l) else (s.readP q 2).getLsbD l) ∧
        e.getLsbD l = (if 2048 / laneW f ≤ l then false
          else if (s.active g).getLsbD l then relEq f (laneA s a (laneW f) l) (laneB s a b (laneW f) l) else (s.readP q 2).getLsbD l)) ∧
    (∀ (q : PReg) (f : FFmt), ∃ v : Word, exec (.vcmpLe g f q a b) s = .next ((s.writeP q 2 v).addPops (srcPops a + opPops b)) ∧
      ∀ l < 64, v.getLsbD l = (if 2048 / laneW (ffCol f) ≤ l then false
        else if (s.active g).getLsbD l then relLe (ffCol f) (laneA s a (laneW (ffCol f)) l) (laneB s a b (laneW (ffCol f)) l) else (s.readP q 2).getLsbD l)) ∧
    (∃ v, exec (.vsel g d a b) s = .next ((s.writeV d 1 v).addPops (srcPops a + opPops b)) ∧
      ∀ l < 64, elem v 32 l = if (s.active g).getLsbD l then laneA s a 32 l else laneB s a b 32 l) ∧
    (LandsLanes s (.vshuf g d a b) g d 32 32 3 (srcPops a + opPops b)
      fun l => if laneB s a b 32 l / 64 % 2 = 1 then 0 else laneA s a 32 (laneB s a b 32 l % 64)) ∧
    (∀ (wide : Bool) (r : SReg), LandsLanes s (.vbcast g wide d r) g d (if wide then 64 else 32) (if wide then 64 else 32) 2 0 fun _ => (s.opA r).toNat) ∧
    (∀ (m : RMode) (src dst : VFmt), ∃ v, exec (.vcvt g m d a src dst) s = .next ((s.writeV d 4 v).addPops (srcPops a)) ∧
      ∀ l < 2048 / laneW dst, elem v (laneW dst) l = if 2048 / laneW src ≤ l then 0
        else if (s.active g).getLsbD l then cvtElem m src dst (laneA s a (laneW src) l) % 2 ^ laneW dst else elem (s.readV d 2) (laneW dst) l % 2 ^ elemBits dst) ∧
    (∀ (dst : VFmt) (t : PackFmt), ∃ xs, xs = unpackRow s.my.fmtn dst t (s.vsrc a 0 0 32).toNat ∧
      LandsLanes s (.vunpack g d a dst t) g d 32 (elemBits dst) 4 (srcPops a) fun l => xs.getD l 0) ∧
    (∀ (src : VFmt) (t : PackFmt), exec (.vpack g d a src t) s =
      .next ((s.writeV d 6 (BitVec.ofNat 2048 (packRow s.my.fmtn src t (s.active g) (elems (s.vsrc a 0 0 32) 32)))).addPops (srcPops a))) ∧
    (∀ (src : VFmt) (op : RedOp), ∃ v xs, xs = redElems src op (s.active g) (elems (s.vsrc a 0 0 (laneW src)) (laneW src)) ∧
      exec (.vred g d a src op) s = .next ((s.writeV d 72 v).addPops (srcPops a)) ∧ ∀ l < 2048 / laneW src, elem v (laneW src) l = xs.getD l 0 % 2 ^ laneW src) ∧
    (∀ (f : VFmt) (x y : Nat), x < 2 ^ laneW f → y < 2 ^ laneW f → Compares f x y (relLt f x y) (relEq f x y) ∧ relLe f x y = (relLt f x y || relEq f x y)) ∧
    (∀ (m : RMode) (src dst : VFmt) (x : Nat), x < 2 ^ laneW src → Converts m src dst x (cvtElem m src dst x)) ∧
    (∀ (fmtn : BitVec 5) (src : VFmt) (t : PackFmt) (v : VWord), laneW src = 32 → Packs fmtn src t (s.active g) (elem v 32) (packRow fmtn src t (s.active g) (elems v 32))) ∧
    (∀ (fmtn : BitVec 5) (dst : VFmt) (t : PackFmt) (row : Nat), ∀ l < 64, Unpacks fmtn dst t row l ((unpackRow fmtn dst t row).getD l 0)) ∧
    ∀ (src : VFmt) (op : RedOp) (act : Word) (v : VWord), ∀ l < 2048 / laneW src, ∀ y ∈ reductionAt src op act (elems v (laneW src)) l,
      (redElems src op act (elems v (laneW src))).getD l 0 = y

/-- bnet writes, with a bound of 2, 64 bits that its pattern picks from sB:sA or sets constant; bnload completes, and keeps the 64 bytes of a pattern to be in use two cycles later; rsave stages the seed and the position; rload lands both with a bound of 4, with the poison of their units, and discards the queue; what the two loads take is what stands in the scratchpad where no unordered write or transform meets it; each has the checks of its address, that the operand is aligned and that it lies in the scratchpad; the addr of their records is the address as computed by the reading of R356 in log 23, and the queue that rload discards is by log 47 (R138, R268, R269, R299, R300, R195, R63; derived) -/
def Obligations.BitNetworkAndStreams : Prop :=
  ∀ (s : State) (g : Guard) (c : Fin 8) (d a : SReg) (b : Src) (ad : Word) (base : Nat), s.guard g = true → ad = s.opA a + s.opB b →
    base = 0x10000000000 + s.issue.core.val * 0x200000 + ad.toNat →
    (∃ v, exec (.bnet g c d a b) s = .next (s.writeS d 2 v) ∧ ∀ i < 64, ∀ k : Nat, k = ((s.pattern c).extractLsb' (8 * i) 8).toNat →
      v.getLsbD i = if k < 64 then (s.opA a).getLsbD k else if k < 128 then (s.opB b).getLsbD (k - 64) else k == 0x81) ∧
    (ad.toNat % 64 = 0 → ad.toNat ≤ 0x1FFFC0 → ∃ (t : State) (v : BitVec 512), exec (.bnload g c a b) s = .next t ∧ t.mem = s.mem ∧ (∀ e x, t.ctx e x = s.ctx e x) ∧
      t.me.patPend = s.me.patPend ++ [(s.me.cycle, c, v)] ∧ t.me.patterns = s.me.patterns ∧
      (s.poisonAt base 64 = none → t = (s.touch [ad.toNat]).mapMe fun k => { k with patPend := k.patPend ++ [(k.cycle, c, v)] }) ∧
      (Current s .core s.issue.core ad.toNat 64 → (v.toNat : Int) = loaded s.mem base 64 false)) ∧
    (ad.toNat % 16 = 0 → ad.toNat + 16 ≤ 0x200000 → ∃ t, exec (.rsave g a b) s = .next t ∧ t.mem = s.mem ∧ t.cores = s.cores ∧
      t.issue.stores = s.issue.stores ++ [.spad ad.toNat 8 ((s.readSpec .rseed 3).setWidth 2048), .spad (ad.toNat + 8) 8 ((s.readSpec .rpos 4).setWidth 2048)]) ∧
    (ad.toNat % 16 = 0 → ad.toNat + 16 ≤ 0x200000 → ∃ seed pos : VWord, exec (.rload g a b) s = .next ((((s.touch [ad.toNat]).writeLoad (.spec .rseed) 4 seed
        (s.poisonAt base 8) []).writeLoad (.spec .rpos) 4 pos (s.poisonAt (base + 8) 8) []).mapMe fun k => { k with rndCount := 0 }) ∧
      (Current s .core s.issue.core ad.toNat 8 → (seed.toNat : Int) = loaded s.mem base 8 false) ∧
      (Current s .core s.issue.core (ad.toNat + 8) 8 → (pos.toNat : Int) = loaded s.mem (base + 8) 8 false)) ∧
    (ad.toNat % 16 ≠ 0 → exec (.rsave g a b) s = .next (s.slotFault ⟨0x20, ad, 0⟩) ∧ exec (.rload g a b) s = .next (s.slotFault ⟨0x20, ad, 0⟩)) ∧
    (ad.toNat % 64 ≠ 0 → exec (.bnload g c a b) s = .next (s.slotFault ⟨0x20, ad, 0⟩)) ∧
    (ad.toNat % 16 = 0 → 0x200000 < ad.toNat + 16 → exec (.rsave g a b) s = .next (s.slotFault ⟨0x11, ad, 0⟩) ∧ exec (.rload g a b) s = .next (s.slotFault ⟨0x11, ad, 0⟩)) ∧
    (ad.toNat % 64 = 0 → 0x1FFFC0 < ad.toNat → exec (.bnload g c a b) s = .next (s.slotFault ⟨0x11, ad, 0⟩))

/-- With the slot executing, its accumulator owned, and its operands aligned, within the scratchpad and in their bank groups, each M instruction makes the bundle wait while the unit is busy, and on an idle unit starts its operation with the rows that its rule gives and the occupancy of its form, and changes no memory, accumulator or register at once; mst notes the address and the row size at which it is to store, and no other form stores; sdscan gives row 0 the 64 correlations of the best seed, divided by 64, and zeros below, and puts that seed and its score in flight to sB and sB+1, due in 4,160 cycles: the first seed of the largest score that is no NaN, or the first seed and NaN where no seed scored; an unowned accumulator raises ACC_NOT_OWNED (0x10) whatever the guard (R88, R141, R143, R144, R145, R148, R152, R154, R155, R156, R158, R159; derived) -/
def Obligations.MatrixStarts : Prop :=
  ∀ (s : State) (g : Guard) (acc : Fin 8) (a : SReg) (b : Src),
    (s.my.accMask.getLsbD acc.val = false → ∀ i, matrixGuard i = some (g, acc) → exec i s = .next (s.slotFault ⟨0x10, 0, 0⟩)) ∧
    (UnitReady s g acc →
      Starts s (.mzero g acc) (some acc) 1 (List.replicate 64 0) none s.me.inflight ∧
      (∀ f : MvFmt, OperandOk (s.opA a) (64 * f.rowBytes) → Starts s (.mld g acc a f) (some acc) 64 ((s.spadRows (s.opA a).toNat f.rowBytes 64).map f.take) none s.me.inflight ∧
        Starts s (.mst g acc a f) none 64 (s.me.acc[acc].toList.map fun r => BitVec.ofNat 2048 (f.put r)) (some ((s.opA a).toNat, f.rowBytes)) s.me.inflight) ∧
      (∀ (f f' : MFmt) (sc z : Bool), f' = f.resolve s.my.fmtn → OperandOk (s.opA a) (64 * f'.rowBytes) → OperandOk (s.opB b) (f'.bRows * f'.rowBytes) →
        Apart (s.opA a) (s.opB b) → Starts s (.mma g f acc a b sc z) (some acc) f'.occupancy
          (mmaRows f' s.my.fmtn (if sc then some (s.readSc acc 3) else none) (s.spadRows (s.opA a).toNat f'.rowBytes 64)
            (s.spadRows (s.opB b).toNat f'.rowBytes f'.bRows) (startRows s acc z)) none s.me.inflight) ∧
      (∀ (f f' : MFmt) (sc z : Bool) (l : Launch) (i p p' : Nat) (k k' : Kept) (h : Handle) (rows : List (BitVec 1024)), f' = f.resolve s.my.fmtn →
        OperandOk (s.opA a) (64 * f'.rowBytes) → i = (s.opB b).toNat → s.launchOf s.issue.core s.issue.ctx = some l →
        Mapped s (BitVec.ofNat 64 (l.htab.toNat + 32 * i)) k → (l.htab.toNat + 32 * i) % 2 ^ 64 + 31 < 2 ^ 55 → Mapped s (BitVec.ofNat 64 (l.htab.toNat + 32 * i + 31)) k' →
        EntryAt s l s.issue.core.die i k k' p p' → (∀ e ∈ s.me.accesses, e.ctx ≠ s.issue.ctx) → handleOf (s.handleEntry s.issue.core s.issue.ctx (p, p')) = some h → h.fmt = f'.entryCode → h.rows = f'.bRows →
        h.depth = f'.depth → Staged.serves (s.me.buffer h.stage) (s.my.launch.getD 0) (s.handleEntry s.issue.core s.issue.ctx (p, p')) = some rows →
        Starts s (.mmaH g f acc a b sc z) (some acc) f'.occupancy
          (mmaRows f' s.my.fmtn (if sc then some (s.readSc acc 3) else none) (s.spadRows (s.opA a).toNat f'.rowBytes 64) (rows.map BitVec.toNat) (startRows s acc z)) none (s.entryPoison (p, p')).me.inflight) ∧
      (∀ (half : Bool) (z : Bool) (r : SeedDesc), r = s.seedDesc s.issue.core (s.opB b).toNat → OperandOk (s.opA a) 8192 → OperandOk (s.opB b) (seedExtent r.header) →
        Apart (s.opA a) (s.opB b) → r.ok (some (if half then 2 else 3)) = true → Starts s (.mmaSd g half acc a b z) (some acc) 128
          (mmaRows (if half then .f16 else .bf16) s.my.fmtn none (s.spadRows (s.opA a).toNat 128 64) ((columnsOf (rowsOf r.weights 64)).map (joinW 16)) (startRows s acc z)) none s.me.inflight) ∧
      (∀ (isBasis : Bool) (r : SeedDesc), r = s.seedDesc s.issue.core (s.opB b).toNat → OperandOk (s.opB b) (seedExtent r.header) → r.ok none = true →
        Starts s (.sdgen g acc a b isBasis) (some acc) 64 ((rowsOf (if isBasis then (basis r.seed ((s.opA a).toNat % 8)).map (fun n => if n then 0xBF800000 else 0x3F800000)
          else r.weights.map (fpCvt (seedFmt r.header) fp32 .rn)) 64).map (vOfElems 32)) none s.me.inflight) ∧
      ∀ (half : Bool) (p p1 : SReg) (s0 w cnt j n : Nat) (t : List (List Fp)) (cs : Nat → List Fp) (sc : Nat → Nat), OperandOk (s.opA a) 8192 → p1.val = (p.val + 1) % 64 →
        s0 = (s.readS p 1).toNat → w = (s.readS p1 2).toNat → cnt = max 1 (min 64 (w % 2 ^ 32)) → j = w / 2 ^ 32 % 8 →
        t = (s.spadRows (s.opA a).toNat 128 64).map (if half then MFmt.f16 else .bf16).fpRow → (∀ i, cs i = corrAll t ((s0 + i) % 2 ^ 64) j) →
        (∀ i, sc i = (((cs i).foldl (fun t x => t.add (x.mul x)) Fp.zero).round fp64 .rn)) → BestOf sc cnt n →
        Starts s (.sdscan g acc a p half) (some acc) 4152 (vOfElems 32 ((cs n).map fun v => (v.scale (-6)).round fp32 .rn) :: List.replicate 63 0) none
          ((s.writeS p 4160 (BitVec.ofNat 64 (s0 + n))).writeS p1 4160 (BitVec.ofNat 64 (sc n))).me.inflight)

/-- MATRIX_OP_COMPLETE of an operation whose operands no other path wrote, on a core that is not frozen, puts its rows into its accumulator, or its rows of bytes into the scratchpad, and nothing else anywhere, and frees the unit; on a frozen core it changes nothing; STAGING_COMPLETE marks its buffer filled; LOOKAHEAD_STAGING of an mma.h among the next 64 bundles fills the buffer of the tile that its entry describes with the bytes of its sealed pages; the rows of the mma forms are, element by element, what R47 to R50, R145 and R147 give: blocks of 16 products in ascending k with one rounding each, fused steps in FP64, and exact narrow sums that wrap, or are scaled and rounded once, in the rows of A that are not zero; a weight of mma.sd and sdgen is the sum of its terms, rounded after each (R153) (R142, R143, R149, R158, R159, R67, R47, R48, R49, R50, R145, R147; derived) -/
def Obligations.MatrixCompletes : Prop :=
  (∀ (s : State) (c : CoreId) (b : Fin 8), ∃ t, exec (.stagingComplete c b) s = .next t ∧ t.mem = s.mem ∧
      (t.core c).staging[b] = ((s.core c).staging[b]).map fun y => { y with done := true }) ∧
  (∀ (s : State) (c : CoreId) (m : MtxOp), (s.core c).mtx = some m →
    ((s.core c).halted = true → exec (.matrixOpComplete c) s = .next s) ∧
    ((s.core c).halted = false → m.dirty = [] →
    (∀ a, m.acc = some a → ∃ t, exec (.matrixOpComplete c) s = .next t ∧ t.mem = s.mem ∧ (t.core c).mtx = none ∧
      (∀ i : Fin 64, (t.core c).acc[a][i] = m.rows.getD i.val 0) ∧ (∀ b : Fin 8, b ≠ a → (t.core c).acc[b] = (s.core c).acc[b]) ∧
      (∀ e x, t.ctx e x = s.ctx e x) ∧ ∀ e, e ≠ c → t.core e = s.core e) ∧
    (∀ p n, m.acc = none → m.store = some (p, n) → s.memOk → ∃ t, exec (.matrixOpComplete c) s = .next t ∧ (t.core c).mtx = none ∧ (t.core c).acc = (s.core c).acc ∧
      (∀ i k, i < m.rows.length → k < n → (Memory.get t.mem (0x10000000000 + c.val * 0x200000 + p + i * n + k)).toNat = (m.rows.getD i 0).toNat / 256 ^ k % 256) ∧
      (∀ q, q < 0x10000000000 + c.val * 0x200000 + p ∨ 0x10000000000 + c.val * 0x200000 + p + m.rows.length * n ≤ q → Memory.get t.mem q = Memory.get s.mem q) ∧
      ∀ e x, t.ctx e x = s.ctx e x))) ∧
  (∀ (u : State) (c : CoreId) (x : CtxId) (w : BitVec 16) (i p p' : Nat) (l : Launch) (k k' : Kept) (kt : Nat → Kept) (h : Handle) (f : MFmt),
      (u.core c).running = some x → ((u.core c).following (u.ctx c x).loop 64 ((u.ctx c x).pc.toNat / 4)).contains w.toNat = true →
      (u.core c).lookaheadIndex x w.toNat = some i → u.launchOf c x = some l → KeptOf u c.die l.asid ((l.htab.toNat + 32 * i) % 2 ^ 64) k →
      KeptOf u c.die l.asid ((l.htab.toNat + 32 * i) % 2 ^ 64 + 31) k' → EntryAt u l c.die i k k' p p' → handleOf (u.handleEntry c x (p, p')) = some h →
      formOfCode h.fmt = some f → h.rows = f.bRows → h.depth = f.depth → (u.core c).bufferBusy h.stage = false →
      Staged.serves ((u.core c).buffer h.stage) ((u.ctx c x).launch.getD 0) (u.handleEntry c x (p, p')) = none →
      (∀ r < f.bRows, ∀ j < f.rowBytes / 8, KeptOf u c.die l.asid ((h.rowAt r + 8 * j) % 2 ^ 64) (kt (h.rowAt r + 8 * j)) ∧ (kt (h.rowAt r + 8 * j)).isSealed = true ∧
        u.assigned ((kt (h.rowAt r + 8 * j)).paOf (h.rowAt r + 8 * j)) = true ∧
        regionClass (u.localPa ((kt (h.rowAt r + 8 * j)).paOf (h.rowAt r + 8 * j))) = some .hbm) →
      ∃ rows pages, exec (.lookaheadStaging c w) u =
          .next (u.mapCore c fun y => y.setBuffer h.stage (some ⟨(u.ctx c x).launch.getD 0, u.handleEntry c x (p, p'), pages, rows, false⟩)) ∧ rows.length = f.bRows ∧
        ∀ r < f.bRows, ∀ o < f.rowBytes, (rows.getD r 0).toNat / 256 ^ o % 256 =
          (Memory.get u.mem (u.localPa ((kt (h.rowAt r + 8 * (o / 8))).paOf (h.rowAt r + 8 * (o / 8))) + o % 8)).toNat) ∧
  (∀ (f : MFmt) (fmtn : BitVec 5) (sc : Option (BitVec 512)) (as bs : List Nat) (acc : List VWord), f ≠ .q → as.length = 64 → acc.length = 64 → bs.length = f.bRows →
    (mmaRows f fmtn sc as bs acc).length = 64 ∧ ∀ i < 64, RowGives f fmtn sc (as.getD i 0) bs (acc.getD i 0) ((mmaRows f fmtn sc as bs acc).getD i 0)) ∧
  ∀ (d : SeedDesc), d.weights.length = 4096 ∧ ∀ k < 64, ∀ c < 64,
    WeightIs (seedFmt d.header) d.coefs.length (fun j => (d.coefs.getD j []).getD c 0) (fun j => (basis d.seed j).getD (64 * k + c) false) (d.weights.getD (64 * k + c) 0)

/-- With its guard true: ewr and ewr.blk claim the shadow set of an engine that is free for the context and write its words, word 15 apart; ego swaps the sets of engines 0 and 2, and of engine 1 does as xft.go; erd lands the word it names in 4 cycles; xft.go starts a valid plan on an idle unit and leaves it pending on a busy one; cpy, cpyh and xpose with valid parameters add their command to the queue; a set claimed by another context or a full queue blocks the bundle (R90, R91, R165, R167, R168, R235, R237, R238, R239, R240, R244, R245; derived) -/
def Obligations.EngineCommands : Prop :=
  ∀ (s : State) (g : Guard) (d a : SReg) (b : Src) (e : Eng) (w : Fin 16), s.guard g = true →
    (∀ sh, ∃ t, exec (.erd g d e w sh) s = .next t ∧ t.mem = s.mem ∧ (∀ c x, t.ctx c x = s.ctx c x) ∧ t.me.inflight = (s.writeS d 4 (s.me.engWord e w sh)).me.inflight ∧
      (w ≠ 15 ∨ sh = true ∨ (s.me.engWord e w sh).getLsbD 63 = true → t = s.writeS d 4 (s.me.engWord e w sh))) ∧
    ((s.me.eng e).freeFor s.issue.ctx = false → exec (.ewr g e w b) s = .next (s.block (.shadow e)) ∧ exec (.ego g e) s = .next (s.block (.shadow e))) ∧
    ((s.me.eng e).freeFor s.issue.ctx = true →
      (∃ t, exec (.ewr g e w b) s = .next t ∧ (t.me.eng e).claim = some s.issue.ctx ∧ (t.me.eng e).active = (s.me.eng e).active ∧ t.mem = s.mem ∧ (∀ c x, t.ctx c x = s.ctx c x) ∧
        ∀ i : Fin 16, (t.me.eng e).shadow[i] = if i = w ∧ w ≠ 15 then s.opB b else (s.me.eng e).shadow[i]) ∧
      (∀ ad : Word, ad = s.opA a + s.opB b → ad.toNat % 8 = 0 → ad.toNat + 8 * (16 - w.val) ≤ 0x200000 →
        ∃ t, exec (.ewrBlk g e w a b) s = .next t ∧ (t.me.eng e).claim = some s.issue.ctx ∧ t.mem = s.mem ∧ (∀ c x, t.ctx c x = s.ctx c x) ∧
        ∀ i : Fin 16, (w ≤ i → i ≠ 15 → Current s .core s.issue.core (ad.toNat + 8 * (i.val - w.val)) 8 → ((t.me.eng e).shadow[i].toNat : Int) =
            loaded s.mem (0x10000000000 + s.issue.core.val * 0x200000 + ad.toNat + 8 * (i.val - w.val)) 8 false) ∧
          (i < w ∨ i = 15 → (t.me.eng e).shadow[i] = (s.me.eng e).shadow[i])) ∧
      (e ≠ .xft → ∃ t, exec (.ego g e) s = .next t ∧ (t.me.eng e).claim = none ∧ (t.me.eng e).swap = none ∧ (t.me.eng e).shadow = Vector.replicate 16 0 ∧
        t.mem = s.mem ∧ (∀ c x, t.ctx c x = s.ctx c x) ∧
        ∀ i : Fin 16, (t.me.eng e).active[i] = if i = 15 then (s.me.eng e).active[i] else (s.me.eng e).shadow[i])) ∧
    exec (.ego g .xft) s = exec (.xftGo g none none) s ∧
    (∀ (i : Option SReg) (o : Option Src) (p : Vector Word 16), p = (let q := match i with | some r => s.me.eng1.shadow.set 2 (s.opA r) | none => s.me.eng1.shadow
        match o with | some v => q.set 3 (s.opB v) | none => q) → s.me.eng1.freeFor s.issue.ctx = true → planOk p = true → planOutside p = none →
      (s.me.xft = none → ∃ t, exec (.xftGo g i o) s = .next t ∧ t.me.xft = some ⟨s.issue.ctx, s.me.cycle, 0, [], s.me.openFor s.issue.core .xft⟩ ∧ t.me.eng1.active = p.set 15 (BitVec.ofNat 64 (2 ^ 63)) ∧
        t.me.eng1.shadow = Vector.replicate 16 0 ∧ t.me.eng1.claim = none ∧ t.me.eng1.swap = none ∧ t.mem = s.mem ∧ ∀ c x, t.ctx c x = s.ctx c x) ∧
      (s.me.xft ≠ none → ∃ t, exec (.xftGo g i o) s = .next t ∧ t.me.xft = s.me.xft ∧ t.me.eng1 = ⟨s.me.eng1.active, p, some s.issue.ctx, some s.issue.ctx⟩ ∧ t.mem = s.mem ∧
        ∀ c x, t.ctx c x = s.ctx c x)) ∧
    (∀ (tm : Template) (n : Nat), tm = templateOf s.me.eng0.active → n = (s.opB b).toNat % 2 ^ 32 → (s.my.grd && tm.dsp) = false → templateOk s.me.eng0.active n = true →
      tm.misaligned (s.opD d).toNat (s.opA a).toNat = none →
      (tm.outside false n (s.opD d).toNat (s.opA a).toNat = none → tm.beyond false n (s.opD d).toNat (s.opA a).toNat = none →
        (s.me.copyq.length < 512 → ∃ t, exec (.cpy g d a b) s = .next t ∧ Queued s t (fresh s .copy false s.me.eng0.active (s.opD d) (s.opA a) n) tm.ssp) ∧
        (512 ≤ s.me.copyq.length → exec (.cpy g d a b) s = .next (s.block .copyFull))) ∧
      (tm.outside true n (s.opD d).toNat (s.opA a).toNat = none → tm.beyond true n (s.opD d).toNat (s.opA a).toNat = none → tm.mode = 0 → n ≤ 65536 → tm.olen ≤ 65536 →
        ((s.die s.issue.core.die).routine tm.routine).isSome = true →
        (s.me.copyq.length < 512 → ∃ t, exec (.cpyh g d a b) s = .next t ∧ Queued s t (fresh s .copy true s.me.eng0.active (s.opD d) (s.opA a) n) tm.ssp) ∧
        (512 ≤ s.me.copyq.length → exec (.cpyh g d a b) s = .next (s.block .copyFull)))) ∧
    (∀ x : XParam, x = xparam s.me.eng2.active → s.my.grd = false → s.xposeOk s.issue.core s.me.eng2.active = true → x.outside = none → x.beyond = none →
      x.ibase % min x.z 8 = 0 → x.obase % min x.z 8 = 0 →
      (s.me.copyq.length < 512 → ∃ t, exec (.xpose g) s = .next t ∧ Queued s t (fresh s .xpose false s.me.eng2.active 0 0 0) x.isp) ∧
      (512 ≤ s.me.copyq.length → exec (.xpose g) s = .next (s.block .copyFull)))

/-- For a command that is not stopped, on a core that is not frozen: COPY_SECTOR_PERFORMED of a raw copy within the scratchpad, with no barrier and more sectors to come, copies its bytes and no others and counts the sector (the sectors of one command go in ascending order, the model's choice, log entry 19); a copy or helper command in an error ends with its code; HELPER_ROW_END runs the routine on the row (what a run does is open, log entry 9): a run that meets an illegal instruction, more than 2^22 instructions or an access that is misaligned or outside the two stream buffers ends the command with 0x06, and any other gives the row its output, truncated or filled with zeros to olen bytes, with error 0x07 where its length is not olen; HELPER_FAULT ends the command with 0x06 on a run of the first sort and does nothing on one of the second; a transpose rank whose slabs lie in scratchpads is served: its elements move, then its arrival and its bit; an absent rank is served with its code; a transpose whose ranks are served leaves the queue; XFT_TRANSFORM_DONE counts one transform and XFT_COMPLETE frees the unit. On a frozen core each of them changes nothing (R6, R175, R178, R235, R246, R250, R254, R255, R258, R260, R382; derived) -/
def Obligations.EngineSteps : Prop :=
  (∀ (s : State) (c : CoreId) (tag : BitVec 32) (q : Command) (tm : Template), Works s c tag q → tm = templateOf q.set →
    (∀ r lo len base : Nat, q.eng = .copy → q.help = false → tm.mode = 0 → tm.ssp = false → tm.dsp = false → bit (setWord q.set 6) 63 = false → s.memOk →
      0 < q.n → q.sectors + 1 < tm.nr * ((q.n + 31) / 32) → r = q.sectors / ((q.n + 31) / 32) → lo = 32 * (q.sectors % ((q.n + 31) / 32)) →
      len = min 32 (q.n - lo) → base = 0x10000000000 + c.val * 0x200000 → CurrentFor s q c (q.src.toNat + r * tm.sstr + lo) len →
      ∃ t, exec (.copySectorPerformed c tag) s = .next t ∧ t.memOk ∧
        (∀ i < len, Memory.get t.mem (base + (q.dst.toNat + r * tm.dstr + lo) + i) = Memory.get s.mem (base + (q.src.toNat + r * tm.sstr + lo) + i)) ∧
        (∀ p, p < base + (q.dst.toNat + r * tm.dstr + lo) ∨ base + (q.dst.toNat + r * tm.dstr + lo) + len ≤ p → Memory.get t.mem p = Memory.get s.mem p) ∧
        ((t.core c).command tag).map (·.sectors) = some (q.sectors + 1) ∧ ∀ e x, t.ctx e x = s.ctx e x) ∧
    (∀ code, q.eng = .copy → 0 < tm.total q.help q.n → q.rowReady = true → s.copySector c q = .error (.code code) →
      ∃ t, exec (.copySectorPerformed c tag) s = .next t ∧ (t.core c).command tag = none ∧ (t.core c).eng0.active[15] = BitVec.ofNat 64 (code * 2 ^ 40)) ∧
    (q.help = true → (s.core c).helperTurn = some tag → q.row < tm.nr →
      ∀ (b : List Byte) (y : Routine) (regs : Vector Word 32) (r : Config.HelperRun), q.eng = .copy → q.row * tm.rowSectors true q.n ≤ q.sectors → tm.ssp = false →
        CurrentFor s q c (q.src.toNat + q.row * tm.sstr) q.n → b = Memory.bytes s.mem (0x10000000000 + c.val * 0x200000 + (q.src.toNat + q.row * tm.sstr)) q.n →
        (s.die c.die).routine tm.routine = some y →
        (∀ i : Fin 32, regs[i] = if i = 10 then tm.arg else if i = 11 then BitVec.ofNat 64 q.row else if i = 12 then BitVec.ofNat 64 q.n else if i = 13 then BitVec.ofNat 64 tm.olen else 0) →
        r = Config.helperRun y.body y.entry b regs 0 →
        ((r.illegal = true ∨ 2 ^ 22 < r.count ∨ ∃ p ∈ r.accesses, helperAccessOk p.1 p.2 = false) → ∀ i ∈ [Instr.helperRowEnd c tag, .helperFault c tag], ∃ t, exec i s = .next t ∧
          (t.core c).command tag = none ∧ (t.core c).eng0.active[15] = BitVec.ofNat 64 (0x06 * 2 ^ 40)) ∧
        ((r.illegal = false ∧ r.count ≤ 2 ^ 22 ∧ ∀ p ∈ r.accesses, helperAccessOk p.1 p.2 = true) → exec (.helperFault c tag) s = .next s ∧ ∃ t, exec (.helperRowEnd c tag) s = .next t ∧ t.mem = s.mem ∧
          (t.core c).command tag = some { q with row := q.row + 1, rowOut := (r.out.take r.produced ++ List.replicate tm.olen 0).take tm.olen } ∧
          (t.core c).eng0.active[15] = (if r.produced = tm.olen then (s.core c).eng0.active[15] else BitVec.ofNat 64 (0x07 * 2 ^ 40)) ∧ ∀ e x, t.ctx e x = s.ctx e x)) ∧
    (∀ (n : Nat) (gone : BitVec 8), q.eng = .xpose → n < (xparam q.set).p → q.served.contains n = false → (xparam q.set).map1 = true → gone ≠ 0 →
      ∃ t, exec (.xposeRankServed (.own c) tag n gone) s = .next t ∧ t.mem = s.mem ∧ (∀ e x, t.ctx e x = s.ctx e x) ∧
        (t.core c).command tag = some { q with served := n :: q.served, err := gone.toNat } ∧
        (t.pkg.sealfail = s.pkg.sealfail ∨ gone = 0x0C ∧ t.pkg.sealfail = s.pkg.sealfail + 1)) ∧
    (∀ (n : Nat) (gone : BitVec 8) (x : XParam), x = xparam q.set → q.eng = .xpose → n < x.p → q.served.contains n = false → x.map1 = false → x.isp = false → x.osp = false →
      s.poison = [] → ∃ u t, s.moveRank c q x (s.xOpen c q x) n (x.indices n) = .ok u ∧ exec (.xposeRankServed (.own c) tag n gone) s = .next t ∧
        t = ((u.mapCore c fun k => k.mapCommand tag fun y => { y with served := n :: y.served }).arriveRank c q x n false).bitRank c x n ∧
        ((t.core c).command tag).map (·.served) = some (n :: q.served) ∧ ∀ e y, (t.ctx e y).s = (s.ctx e y).s ∧ (t.ctx e y).p = (s.ctx e y).p ∧ (t.ctx e y).v = (s.ctx e y).v) ∧
    (q.eng = .xpose → (∀ n < (xparam q.set).p, q.served.contains n = true) → ∃ t, exec (.xposeSendComplete c tag) s = .next t ∧ (t.core c).command tag = none ∧
      ∀ e y, (t.ctx e y).s = (s.ctx e y).s ∧ (t.ctx e y).p = (s.ctx e y).p ∧ (t.ctx e y).v = (s.ctx e y).v)) ∧
  (∀ (s : State) (c : CoreId) (x : XftOp), (s.core c).xft = some x → (s.core c).halted = false →
    (x.done < planB (s.core c).eng1.active → ∃ t y, exec (.xftTransformDone c) s = .next t ∧ (t.core c).xft = some y ∧ y.done = x.done + 1 ∧
      (t.core c).eng1.active[15] = BitVec.ofNat 64 (2 ^ 63 + (x.done + 1) % 2 ^ 17) ∧ ∀ e y, t.ctx e y = s.ctx e y) ∧
    ((s.core c).eng1.swap = none → ∃ t, exec (.xftComplete c) s = .next t ∧ (t.core c).xft = none ∧
      (t.core c).eng1.active[15] = BitVec.ofNat 64 (planB (s.core c).eng1.active % 2 ^ 17) ∧ ∀ e y, (t.ctx e y).s = (s.ctx e y).s ∧ (t.ctx e y).v = (s.ctx e y).v)) ∧
  ∀ (s : State) (c : CoreId) (tag : BitVec 32) (n : Nat) (gone : BitVec 8), (s.core c).halted = true → ∀ i ∈ [Instr.copySectorPerformed c tag, .helperRowEnd c tag, .helperFault c tag,
    .xposeRankServed (.own c) tag n gone, .xposeSendComplete c tag, .xftTransformDone c, .xftComplete c], exec i s = .next s

/-- Each update kind changes the counts and flags as R306 gives, and a phase ends when both counts are zero after one that tests for it; an update rewrites the 16 bytes of its barrier and no other byte, and leaves every register, die and trap queue as they were; BARRIER_UPDATE makes one of the updates on their way (R305, R306, R307; derived) -/
def Obligations.BarrierUpdates : Prop :=
  (∀ (b : Barrier) (n : Nat) (f : Barrier → Barrier), (∀ x, f x = if x.arr = 0 ∧ x.sect = 0 then { x with phase := x.phase + 1, arr := x.reload } else x) →
    b.update .arrive n = f { b with arr := BitVec.ofNat 16 (b.arr.toNat - n), err := b.err || decide (b.arr.toNat < n) } ∧
    b.update .arriveErr n = f { b with arr := BitVec.ofNat 16 (b.arr.toNat - n), err := true } ∧
    b.update .sector n = f { b with sect := b.sect - BitVec.ofNat 32 n } ∧ b.update .expect n = f { b with sect := b.sect + BitVec.ofNat 32 n } ∧
    b.update .error n = f { b with sect := b.sect - BitVec.ofNat 32 n, err := true } ∧
    b.update .flag n = { b with err := true } ∧ b.update .overflow n = { b with ovf := true }) ∧
  (∀ (s : State) (c : CoreId) (l : Option Nat) (a : Nat) (k : UpdKind) (n : Nat), s.memOk → s.savedGroup c l = none →
    let t := s.updateBarrier c l a k n
    let base := 0x10000000000 + c.val * 0x200000 + a
    t.memOk ∧ Memory.read t.mem base 16 = ((Barrier.ofNat (Memory.read s.mem base 16)).update k n).toNat ∧
    (∀ p, p < base ∨ base + 16 ≤ p → Memory.get t.mem p = Memory.get s.mem p) ∧
    (∀ e x, (t.ctx e x).s = (s.ctx e x).s ∧ (t.ctx e x).p = (s.ctx e x).p ∧ (t.ctx e x).v = (s.ctx e x).v ∧ (t.ctx e x).pc = (s.ctx e x).pc) ∧
    t.die0 = s.die0 ∧ t.die1 = s.die1 ∧ t.pkg = s.pkg ∧ t.traps = s.traps) ∧
  ∀ (s : State) (k : Nat) (u : Update), s.updates[k]? = some u →
    exec (.barrierUpdate k) s = .next ({ s with updates := s.updates.eraseIdx k }.updateBarrier u.core u.launch u.addr u.kind u.n)

/-- With its guard true and an aligned address within the scratchpad: tbinit writes the barrier afresh, tbexpect and tbarrive make their updates, an arrival of 0 none, and one that must wait for covered accesses freezes the core; tbwait blocks while the phase is its own and goes on otherwise, and then the core keeps no lease copy older than a write of another die, of another package or of an engine (R216); tbtest lands the fields of the barrier in 2 cycles. A misaligned address raises MEM_ALIGN (0x20), and one past the end SCRATCH_RANGE (0x11), both with the address in the record by the model's reading of R356 (log entry 23). tbarrive.g, outside a guard and with an aligned address that the tables map to an assigned scratchpad, sends its arrival there once the accesses of its scope are performed; the timestamp that a test and a passed wait raise %pts to is chosen by the model (log entry 24) (R308, R309, R310, R311, R312, R313, R314, R315, R227, R234, R63; derived) -/
def Obligations.BarrierInstructions : Prop :=
  ∀ (s : State) (g : Guard) (d a : SReg) (b : Src) (ad n : Nat), s.guard g = true → ad = (s.opA a).toNat → n = (s.opB b).toNat % 2 ^ 16 →
    (ad % 16 = 0 → ad + 15 ≤ 0x1FFFFF →
      exec (.tbinit g a b) s = .next (((s.touch [ad]).putBarrier s.issue.core ad ⟨0, BitVec.ofNat 16 n, BitVec.ofNat 16 n, 0, false, false, 0, 0⟩).wake s.issue.core) ∧
      exec (.tbexpect g a b) s = .next ((s.touch [ad]).updateBarrier s.issue.core none ad .expect ((s.opB b).toNat % 2 ^ 32)) ∧
      exec (.tbarrive g a b) s = .next (if n = 0 then s else if s.unperformed .core then s.wait .fence else (s.touch [ad]).updateBarrier s.issue.core none ad .arrive n) ∧
      ((s.barrier s.issue.core ad).phase = (s.opB b).setWidth 4 → exec (.tbwait g a b) s = .next (s.block (.tbwait ad ((s.opB b).setWidth 4)))) ∧
      ((s.barrier s.issue.core ad).phase ≠ (s.opB b).setWidth 4 → ∃ t, exec (.tbwait g a b) s = .next t ∧ t = (s.touch [ad]).waited ad ∧ t.mem = s.mem ∧ NoStale t s.issue.core false ∧
        t.issue.blocked = s.issue.blocked ∧ t.me.inflight = s.me.inflight ∧ ∀ c x, (t.ctx c x).s = (s.ctx c x).s ∧ (t.ctx c x).p = (s.ctx c x).p ∧ (t.ctx c x).v = (s.ctx c x).v) ∧
      ∃ t v, exec (.tbtest g d a) s = .next t ∧ t.mem = s.mem ∧ t.me.inflight = (s.writeS d 2 v).me.inflight ∧
        (∀ c x, (t.ctx c x).s = (s.ctx c x).s ∧ (t.ctx c x).p = (s.ctx c x).p ∧ (t.ctx c x).v = (s.ctx c x).v) ∧ v.extractLsb' 32 32 = (s.barrier s.issue.core ad).sect ∧
        v.extractLsb' 16 16 = (s.barrier s.issue.core ad).arr ∧ v.extractLsb' 10 6 = 0 ∧ v.getLsbD 9 = (s.barrier s.issue.core ad).err ∧
        v.getLsbD 8 = (s.barrier s.issue.core ad).ovf ∧ v.extractLsb' 4 4 = 0 ∧ v.extractLsb' 0 4 = (s.barrier s.issue.core ad).phase) ∧
    (∀ i ∈ [Instr.tbinit g a b, .tbexpect g a b, .tbarrive g a b, .tbwait g a b, .tbtest g d a],
      (ad % 16 ≠ 0 → exec i s = .next (s.slotFault ⟨0x20, s.opA a, 0⟩)) ∧
      (ad % 16 = 0 → 0x1FFFFF < ad + 15 → exec i s = .next (s.slotFault ⟨0x11, s.opA a, 0⟩))) ∧
    (s.my.grd = true → exec (.tbarriveG g a b) s = .next (s.slotFault ⟨0x28, 0, 0⟩)) ∧
    ∀ (k : Kept) (c : CoreId) (o : Nat), s.my.grd = false → ad % 16 = 0 → Mapped s (s.opA a) k → k.cls = .onchip → o < 0x200000 →
      physOf s (s.opA a) k = 0x10000000000 + c.val * 0x200000 + o → s.assigned (physOf s (s.opA a) k) = true →
      (n = 0 → exec (.tbarriveG g a b) s = .next s) ∧
      (n ≠ 0 → ∀ sc, sc = (if s.issue.core = c then Scope.core else if s.issue.core.cluster = c.cluster then .clu else if s.issue.core.die = c.die then .die else .pkg) →
        (s.unperformed sc = true → exec (.tbarriveG g a b) s = .next (s.wait .fence)) ∧
        (s.unperformed sc = false → exec (.tbarriveG g a b) s = .next { s with updates := s.updates ++ [⟨c, o, .arrive, n, s.my.launch⟩] }))

/-- With its guard true and a well-formed descriptor of a scoreboard that the launch names, sbset sets or clears its range and no other bit once the covered accesses are performed, and waits before; sbarm installs an arm whose range is not yet full and arrives at its barrier at once for one that is; a descriptor with a nonzero reserved bit, or a range past the end, raises SB_PARAM (0x35), a core with 64 arms SB_ARMS_FULL (0x36) (R316, R317, R318, R319, R63; derived) -/
def Obligations.Scoreboards : Prop :=
  ∀ (s : State) (g : Guard) (a : SReg) (b : Src) (w : Nat), s.guard g = true → w = (s.opB b).toNat →
    (s.sbOk w = false → exec (.sbset g b) s = .next (s.slotFault ⟨0x35, 0, 0⟩) ∧ exec (.sbarm g a b) s = .next (s.slotFault ⟨0x35, 0, 0⟩)) ∧
    (w / 2 ^ 12 % 16 ≠ 0 ∨ w / 2 ^ 28 % 16 ≠ 0 ∨ w / 2 ^ 36 % 16 ≠ 0 ∨ 2 ^ 41 ≤ w ∨ 4095 < w % 2 ^ 12 + w / 2 ^ 16 % 2 ^ 12 → s.sbOk w = false) ∧
    ∀ (l : Launch) (j first count : Nat) (c : Bool), w = first + (count - 1) * 2 ^ 16 + j * 2 ^ 32 + c.toNat * 2 ^ 40 → 0 < count → first + count ≤ 4096 → j < 16 →
      s.launchOf s.issue.core s.issue.ctx = some l → j ∈ l.boards →
      (s.unperformed .die = true → exec (.sbset g b) s = .next (s.wait .fence)) ∧
      (s.unperformed .die = false → ∃ t, exec (.sbset g b) s = .next t ∧ ((∀ m ∈ (s.die s.issue.core.die).arms, m.board ≠ j) →
        t.mem = s.mem ∧ t.cores = s.cores ∧ t.pkg = s.pkg ∧ t.traps = s.traps ∧ (t.die s.issue.core.die).arms = (s.die s.issue.core.die).arms ∧
        ∀ j' < 16, ∀ i < 4096, ((t.die s.issue.core.die).board j').getLsbD i =
          if j' = j ∧ first ≤ i ∧ i < first + count then !c else ((s.die s.issue.core.die).board j').getLsbD i)) ∧
      ((s.opA a).toNat % 16 = 0 → (s.opA a).toNat + 15 ≤ 0x1FFFFF →
        (64 ≤ ((s.die s.issue.core.die).arms.filter fun m => m.core == s.issue.core && m.saved.isNone).length → exec (.sbarm g a b) s = .next (s.slotFault ⟨0x36, 0, 0⟩)) ∧
        (((s.die s.issue.core.die).arms.filter fun m => m.core == s.issue.core && m.saved.isNone).length < 64 →
          ((∃ i, first ≤ i ∧ i < first + count ∧ ((s.die s.issue.core.die).board j).getLsbD i = false) → exec (.sbarm g a b) s =
            .next (s.mapDie s.issue.core.die fun d => { d with arms := d.arms ++ [⟨s.issue.core, s.issue.ctx, (s.opA a).toNat, j, first, count, c, none, false⟩] })) ∧
          ((∀ i, first ≤ i → i < first + count → ((s.die s.issue.core.die).board j).getLsbD i = true) → ∃ t, exec (.sbarm g a b) s = .next t ∧
            t.mem = (s.updateBarrier s.issue.core s.my.launch (s.opA a).toNat .arrive 1).mem ∧
            (t.die s.issue.core.die).arms.length = (s.die s.issue.core.die).arms.length ∧
            ∀ i < 4096, ((t.die s.issue.core.die).board j).getLsbD i =
              if c = true ∧ first ≤ i ∧ i < first + count then false else ((s.die s.issue.core.die).board j).getLsbD i)))

/-- With its guard true, dbar at an undeclared level raises DOMAIN_UNDECLARED (0x37); at level 0 it flips the task's phase bit, and blocks while a communication phase has open transfers or loads, at whose end %pts reaches the clock of its die, a timestamp that the model chooses (log entry 24), and the core keeps no lease copy older than a write of another die, of another package or of an engine; at another level the arrival that is not the last blocks with its pending record and the mark of what the member has issued; the last one of a computation phase, or of a communication phase with nothing to deliver, completes the counter of that level alone, flips the level's phase bit and goes on; the last one of a communication phase with transfers open blocks, and its counter waits for them; DOMAIN_BARRIER_COMPLETE completes a counter that was waiting for transfers; a counter at one level never changes another level's (R26, R29, R30, R229, R321, R322, R63; derived) -/
def Obligations.DomainBarriers : Prop :=
  ∀ (s : State) (g : Guard) (b : Src) (lev : Fin 8), lev.val = (s.opB b).toNat % 8 →
    (s.guard g = true → s.levelDeclared lev.val = false → exec (.dbar g b) s = .next (s.slotFault ⟨0x37, 0, 0⟩)) ∧
    (s.guard g = true → lev = 0 → s.my.dmem.getLsbD 56 = false →
      exec (.dbar g b) s = .next (s.mapMy fun y => { y with dmem := y.dmem ^^^ BitVec.ofNat 64 (2 ^ 56) })) ∧
    (s.guard g = true → lev = 0 → s.my.dmem.getLsbD 56 = true → s.phaseOpen s.issue.core s.issue.ctx (s.markOf s.issue.core s.issue.ctx) = false →
      ∃ t, exec (.dbar g b) s = .next t ∧ t.mem = s.mem ∧ t.my.dmem = s.my.dmem ^^^ BitVec.ofNat 64 (2 ^ 56) ∧ NoStale t s.issue.core false ∧
        t.my.pts = BitVec.ofNat 64 (max s.my.pts.toNat (s.die s.issue.core.die).clock) ∧ ∀ c x, (t.ctx c x).s = (s.ctx c x).s ∧ (t.ctx c x).p = (s.ctx c x).p ∧ (t.ctx c x).v = (s.ctx c x).v) ∧
    (s.guard g = true → lev = 0 → s.my.dmem.getLsbD 56 = true → s.phaseOpen s.issue.core s.issue.ctx (s.markOf s.issue.core s.issue.ctx) = true →
      exec (.dbar g b) s = .next (s.block .transfers)) ∧
    (s.guard g = true → lev ≠ 0 → s.levelDeclared lev.val = true → s.my.dbarPend = none → ∀ k, k = s.counterOf s.issue.core s.issue.ctx lev.val →
      (k.arrived + 1 < k.live → ∃ t, exec (.dbar g b) s = .next t ∧ t.issue.blocked = some .dbar ∧ t.mem = s.mem ∧ t.my.dbarPend = some ⟨lev, k.gen⟩ ∧ t.my.dmem = s.my.dmem ∧
        t.counterOf s.issue.core s.issue.ctx lev.val = { k with arrived := k.arrived + 1, marks := s.markOf s.issue.core s.issue.ctx :: k.marks } ∧
        (∀ l j n, j ≠ lev.val → (t.die s.issue.core.die).counter l j n = (s.die s.issue.core.die).counter l j n) ∧
        ∀ c x, (t.ctx c x).s = (s.ctx c x).s ∧ (t.ctx c x).v = (s.ctx c x).v) ∧
      (k.live ≤ k.arrived + 1 → k.phase = false → ∃ t, exec (.dbar g b) s = .next t ∧ t.issue.blocked = s.issue.blocked ∧ t.mem = s.mem ∧ t.my.dbarPend = none ∧
        t.my.dmem = s.my.dmem ^^^ BitVec.ofNat 64 (2 ^ (56 + lev.val)) ∧
        t.counterOf s.issue.core s.issue.ctx lev.val = { k with arrived := 0, gen := k.gen + 1, phase := true, drain := false, marks := [] } ∧
        (∀ l j n, j ≠ lev.val → (t.die s.issue.core.die).counter l j n = (s.die s.issue.core.die).counter l j n) ∧
        ∀ c x, (t.ctx c x).s = (s.ctx c x).s ∧ (t.ctx c x).v = (s.ctx c x).v) ∧
      ∀ (m : DCounter) (u : State), m = { k with arrived := k.arrived + 1, marks := s.markOf s.issue.core s.issue.ctx :: k.marks } →
        u = s.mapMy (fun y => { y with dbarPend := some ⟨lev, k.gen⟩ }) → k.live ≤ k.arrived + 1 → k.phase = true →
        (u.domainOpen s.issue.core.die m = true → ∃ t, exec (.dbar g b) s = .next t ∧ t.issue.blocked = some .dbar ∧ t.mem = s.mem ∧ t.my.dbarPend = some ⟨lev, k.gen⟩ ∧
          t.my.dmem = s.my.dmem ∧ t.counterOf s.issue.core s.issue.ctx lev.val = { m with drain := true } ∧
          (∀ l j n, j ≠ lev.val → (t.die s.issue.core.die).counter l j n = (s.die s.issue.core.die).counter l j n) ∧
          ∀ c x, (t.ctx c x).s = (s.ctx c x).s ∧ (t.ctx c x).v = (s.ctx c x).v) ∧
        (u.domainOpen s.issue.core.die m = false → ∃ t, exec (.dbar g b) s = .next t ∧ t.issue.blocked = s.issue.blocked ∧ t.mem = s.mem ∧ t.my.dbarPend = none ∧
          t.my.dmem = s.my.dmem ^^^ BitVec.ofNat 64 (2 ^ (56 + lev.val)) ∧
          t.counterOf s.issue.core s.issue.ctx lev.val = { k with arrived := 0, gen := k.gen + 1, phase := false, drain := false, marks := [] } ∧
          (∀ l j n, j ≠ lev.val → (t.die s.issue.core.die).counter l j n = (s.die s.issue.core.die).counter l j n) ∧
          ∀ c x, (t.ctx c x).s = (s.ctx c x).s ∧ (t.ctx c x).v = (s.ctx c x).v)) ∧
    ∀ (d : DieId) (k : DCounter), ((s.die d).counters.find? fun j => j.launch == k.launch && j.level == lev.val && j.idx == k.idx) = some k → k.drain = true →
      k.live ≤ k.arrived → k.phase = false ∨ s.domainOpen d k = false → ∃ t, exec (.domainBarrierComplete d k.launch lev k.idx) s = .next t ∧ t.mem = s.mem ∧
      (t.die d).counter k.launch lev.val k.idx = { k with arrived := 0, gen := k.gen + 1, phase := !k.phase, drain := false, marks := [] } ∧
      (∀ l j n, j ≠ lev.val → (t.die d).counter l j n = (s.die d).counter l j n) ∧
      ∀ c x, (t.ctx c x).s = (s.ctx c x).s ∧ (t.ctx c x).v = (s.ctx c x).v ∧ (t.ctx c x).dmem = (s.ctx c x).dmem

/-- With its guard true and a valid channel in the task's role and of the kind: chsend counts one element and puts it on its way while a credit is free, blocks without one, and is discarded with a retired consumer; chrecv takes the oldest arrived element, due in 6 cycles, or blocks; chtest lands the snapshot of R264 in 2 cycles (the timestamp chrecv raises %pts to is chosen by the model: log entry 24); CHANNEL_DELIVERY moves the oldest element on its way to the FIFO, and CHANNEL_CREDIT_RETURN tells the producer what was received (R261, R262, R263, R264, R265, R63; derived) -/
def Obligations.Channels : Prop :=
  (∀ (s : State) (g : Guard) (b : Src), s.guard g = true → 1023 < (s.opB b).toNat → ∀ d, exec (.chtest g d b) s = .next (s.slotFault ⟨0x32, 0, 0⟩)) ∧
  (∀ (s : State) (g : Guard) (b : Src) (l : Launch) (c : Chan), s.guard g = true →
    s.launchOf s.issue.core s.issue.ctx = some l → (s.opB b).toNat ≤ 1023 → l.chan (s.opB b).toNat = some c →
    (∀ (x : ChSrc) (v : VWord) (n : Nat), (n, v) = (match x with | .scalar r => (0, (s.readS r 0).setWidth 2048) | .vector r => (srcPops r, s.vsrc r 0 0 32)) →
      s.my.grd = false → s.my.task.toNat = c.prod → c.vec = (match x with | .scalar _ => false | .vector _ => true) →
      (l.hasRetired c.cons = false → c.depth ≤ c.sent - c.known → exec (.chsend g x b) s = .next ((s.block (.chanFull c.idx)).addPops n)) ∧
      (l.hasRetired c.cons = false → c.sent - c.known < c.depth → exec (.chsend g x b) s =
        .next ((s.putChan s.issue.core.die l.id { c with sent := c.sent + 1, transit := c.transit ++ [v] }).addPops n)) ∧
      (l.hasRetired c.cons = true → exec (.chsend g x b) s = .next (s.addPops n))) ∧
    (s.my.task.toNat = c.cons → ∀ (r : SReg) (q : VNum),
      (c.fifo = [] → (c.vec = false → exec (.chrecv g (.scalar r) b) s = .next (s.block (.chanEmpty c.idx))) ∧
        (c.vec = true → exec (.chrecv g (.vector q) b) s = .next (s.block (.chanEmpty c.idx)))) ∧
      ∀ (v : VWord) (rest : List VWord) (t : State), c.fifo = v :: rest →
        t = (s.putChan s.issue.core.die l.id { c with received := c.received + 1, fifo := rest }).raisePtsAll s.issue.core s.issue.ctx →
        (c.vec = false → exec (.chrecv g (.scalar r) b) s = .next (t.writeS r 6 (v.setWidth 64))) ∧
        (c.vec = true → exec (.chrecv g (.vector q) b) s = .next (t.writeV q 6 v))) ∧
    ∀ d, c.depth < 2 ^ 16 → c.fifo.length < 2 ^ 16 → ∃ v, exec (.chtest g d b) s = .next (s.writeS d 2 v) ∧ v.getLsbD 63 = l.hasRetired c.prod ∧
      v.getLsbD 62 = l.hasRetired c.cons ∧ (v.extractLsb' 32 16).toNat = c.depth - (c.sent - c.known) ∧ (v.extractLsb' 0 16).toNat = c.fifo.length ∧
      v.extractLsb' 48 14 = 0 ∧ v.extractLsb' 16 16 = 0) ∧
  ∀ (s : State) (d : DieId) (n : Nat) (ch : BitVec 10) (y : Launch) (c : Chan), ((s.die d).launches.find? fun z => z.id == n) = some y → y.chan ch.toNat = some c →
    (∀ v rest, c.transit = v :: rest → s.consumerSaved d y c = false → ∃ t, exec (.channelDelivery d n ch) s = .next t ∧ t.mem = s.mem ∧
      (((t.die d).launches.find? fun z => z.id == n).bind fun z => z.chan ch.toNat) =
        some (if y.hasRetired c.cons then { c with transit := rest } else { c with transit := rest, fifo := c.fifo ++ [v] }) ∧
      ∀ e x, (t.ctx e x).s = (s.ctx e x).s ∧ (t.ctx e x).v = (s.ctx e x).v) ∧
    ∃ t, exec (.channelCreditReturn d n ch) s = .next t ∧ t.mem = s.mem ∧
      (((t.die d).launches.find? fun z => z.id == n).bind fun z => z.chan ch.toNat) = some { c with known := c.received } ∧
      ∀ e x, (t.ctx e x).s = (s.ctx e x).s ∧ (t.ctx e x).v = (s.ctx e x).v

/-- With its guard true and its checks passed, mcred starts one reduction with the descriptor read at issue and awaits vD and the status scalar a + 1 within 2,048 cycles, and mcst starts one multicast of the vector read at issue; neither changes memory or a register at once. The first failing check of R387 faults: a guarded task's mcst, or its mcred that delivers, GUARD_FORBIDDEN (0x28); a descriptor address that is no multiple of 32, MEM_ALIGN (0x20), or one past the scratchpad, SCRATCH_RANGE (0x11), both with the address in the record by the model's reading of R356 (log entry 23), and so a send barrier past it; a descriptor against its rules, or scoreboard bits past 4,096, COLL_PARAM (0x40); a group with no active copy, GROUP_INACTIVE (0x41); a core that is no member, NOT_MEMBER (0x42) (R384, R386, R387, R393, R63, R230; derived) -/
def Obligations.CollectiveIssue : Prop :=
  ∀ (s : State) (g : Guard) (d : VNum) (x : VSrc) (a : SReg) (b : Src), s.guard g = true →
    (∀ (v : Vector Word 4) (gc : GroupCopy) (st : SReg), st.val = (a.val + 1) % 64 → CollReady s (s.opA a) (s.opB b) true v gc →
      ∃ t o, exec (.mcred g d a b) s = .next t ∧ t.mem = s.mem ∧ (∀ c y, t.ctx c y = s.ctx c y) ∧ t.pkg.colls = s.pkg.colls ++ [o] ∧ o.id = s.pkg.nextColl ∧
        o.core = s.issue.core ∧ o.ctx = s.issue.ctx ∧ o.reduce = true ∧ o.desc = v ∧ o.off = s.opB b ∧ o.acc = s.me.nextAcc ∧ o.answered = false ∧
        o.ring = ((collDesc v).alg == 2 || ((collDesc v).alg == 0 && !gc.combine && decide (64 < gc.members.length))) ∧
        o.rows = [] ∧ o.absent = [] ∧ o.served = [] ∧ o.entry = none ∧
        t.me.inflight = s.me.inflight ++ [⟨s.issue.ctx, .v d, s.me.cycle, s.me.cycle + 2048, false, false, none, some s.me.nextAcc, none, []⟩,
          ⟨s.issue.ctx, .s st, s.me.cycle, s.me.cycle + 2048, false, false, none, some s.me.nextAcc, none, []⟩]) ∧
    (∀ (v : Vector Word 4) (gc : GroupCopy), CollReady s (s.opA a) (s.opB b) false v gc →
      ∃ t o, exec (.mcst g x a b) s = .next t ∧ t.mem = s.mem ∧ (∀ c y, t.ctx c y = s.ctx c y) ∧ t.pkg.colls = s.pkg.colls ++ [o] ∧ o.id = s.pkg.nextColl ∧
        o.core = s.issue.core ∧ o.ctx = s.issue.ctx ∧ o.reduce = false ∧ o.desc = v ∧ o.off = s.opB b ∧ o.data = s.vsrc x 2 0 32 ∧ o.absent = [] ∧ o.served = [] ∧
        t.me.inflight = s.me.inflight) ∧
    (∀ f, s.collCheck (s.opA a) (s.opB b) true = .error f → exec (.mcred g d a b) s = .next (s.slotFault f)) ∧
    (∀ f, s.collCheck (s.opA a) (s.opB b) false = .error f → exec (.mcst g x a b) s = .next (s.slotFault f)) ∧
    (s.my.grd = true → s.collCheck (s.opA a) (s.opB b) false = .error ⟨0x28, 0, 0⟩) ∧
    (s.my.grd = true → (s.opA a).toNat + 32 ≤ 0x200000 → Current s .core s.issue.core (s.opA a).toNat 32 →
      Memory.read s.mem (spadBase s.issue.core + (s.opA a).toNat) 8 / 2 ^ 34 % 4 = 1 → s.collCheck (s.opA a) (s.opB b) true = .error ⟨0x28, 0, 0⟩) ∧
    (s.my.grd = false → ∀ r, ((s.opA a).toNat % 32 ≠ 0 → s.collCheck (s.opA a) (s.opB b) r = .error ⟨0x20, s.opA a, 0⟩) ∧
      ((s.opA a).toNat % 32 = 0 → 0x200000 < (s.opA a).toNat + 32 → s.collCheck (s.opA a) (s.opB b) r = .error ⟨0x11, s.opA a, 0⟩) ∧
      ∀ v : Vector Word 4, (s.opA a).toNat % 32 = 0 → (s.opA a).toNat + 32 ≤ 0x200000 → Current s .core s.issue.core (s.opA a).toNat 32 →
        (∀ i : Fin 4, v[i] = BitVec.ofNat 64 (Memory.read s.mem (spadBase s.issue.core + ((s.opA a).toNat + 8 * i.val)) 8)) →
        (v[3].getLsbD 63 = true → 0x200000 < v[3].toNat % 2 ^ 21 + 16 →
          s.collCheck (s.opA a) (s.opB b) r = .error ⟨0x11, BitVec.ofNat 64 (v[3].toNat % 2 ^ 21), 0⟩) ∧
        ((v[3].getLsbD 63 = true → v[3].toNat % 2 ^ 21 + 16 ≤ 0x200000) →
          (collOk v (s.opB b).toNat r = false → s.collCheck (s.opA a) (s.opB b) r = .error ⟨0x40, 0, 0⟩) ∧
          (collOk v (s.opB b).toNat r = true →
            ((s.die s.issue.core.die).group (collDesc v).gidx = none → s.collCheck (s.opA a) (s.opB b) r = .error ⟨0x41, 0, 0⟩) ∧
            ∀ gc, (s.die s.issue.core.die).group (collDesc v).gidx = some gc →
              ((collDesc v).sben = true → 4096 < (collDesc v).sbfirst + gc.members.length → s.collCheck (s.opA a) (s.opB b) r = .error ⟨0x40, 0, 0⟩) ∧
              (((collDesc v).sben = true → (collDesc v).sbfirst + gc.members.length ≤ 4096) → s.rankOf gc s.issue.core = none →
                s.collCheck (s.opA a) (s.opB b) r = .error ⟨0x42, 0, 0⟩))))

/-- The last row of an mcred that no router combines and that goes by no ring, whose context has no earlier acquire outstanding and which has no absent member, makes its results known: in the lanes of vD the canonical sum, element by element in rank order, and status 0; the first row at a router with a free entry starts its prefix; a delivery at a member puts the bytes there, and the member's arrival and bit follow; a packet of another package is written and answered, or refused with GROUP_MISMATCH (0x0B) or SEAL_FAIL (0x0C); a request of another package for a member's row is answered, where nothing orders the row after a write of it, with the bytes at its home, and one of this package keeps the row; an access of another package is performed at once by the home bank, or refused when nothing is assigned there, and a load or an atomic that meets a poisoned unit changes nothing and is answered with the poison (log entry 98). By the model's readings the address of a member clears bits 5:0 of base plus offset (log entry 43), the messages of other packages have the form of log entry 8, and a write that splits a poisoned unit fails (log entry 69) (R54, R294, R379, R380, R382, R383, R388, R389, R390, R391, R393, R394; derived) -/
def Obligations.CollectiveSteps : Prop :=
  (∀ (s : State) (id rank p : Nat) (row : VWord) (genuine : Bool) (o : CollOp) (g : GroupCopy) (w : Vector Word 4), s.coll id = some o → s.collGroup o = some g →
    p = g.members.length → rank < p → g.members[rank]? = some w → s.isOwn (memberOf w) = false → (g.isSealed = true → genuine = true) →
    o.reduce = true → o.answered = false → o.ring = false → o.entry = none → o.absent = [] → o.served.contains rank = false →
    (∀ a ∈ (s.core o.core).accesses, a.ctx = o.ctx → a.acq = true → o.acc ≤ a.id) →
    (g.combine = false → o.passed + 1 = p → ∀ rows : Nat → VWord, (∀ q, rows q = if q = rank then row else (o.rows.lookup q).getD 0) →
      ∃ (t : State) (v : VWord) (lane : Nat), lane = (if (collDesc o.desc).ofmt = 0 then 64 else 32) ∧
      ((collDesc o.desc).op ≤ 2 → ∀ e < 2048 / lane, e < (collDesc o.desc).count → SumIs (collDesc o.desc) p rows e (elem v lane e)) ∧
      exec (.routerContribution id rank row ⟨0, genuine⟩) s = .next t ∧ (∀ e x, (t.ctx e x).s = (s.ctx e x).s ∧ (t.ctx e x).v = (s.ctx e x).v) ∧
      (t.core o.core).inflight = (s.core o.core).inflight.map fun e => if e.acc = some o.acc then
        { e with acc := none, val := some (match e.dest with
            | .v _ => v
            | _ => 0) } else e) ∧
    (g.combine = true → rank = 0 → o.passed + 1 < p → s.entriesUsed < 8192 → ∃ t, exec (.routerContribution id 0 row ⟨0, genuine⟩) s = .next t ∧ t.mem = s.mem ∧
      (∀ e, t.core e = s.core e) ∧
      t.coll id = some { o with entry := some (1, (collDesc o.desc).keep ((collDesc o.desc).take row)), passed := o.passed + 1, served := 0 :: o.served })) ∧
  (∀ (s u : State) (id q : Nat) (o : CollOp) (g : GroupCopy) (w : Vector Word 4), s.coll id = some o → s.collGroup o = some g → g.members[q]? = some w →
    o.served.contains q = false →
    (o.reduce = true → o.answered = true → o.absent = [] →
      PutAt s u g (memberOf w) o.launch (barsOf o (memberOf w)) (sbOf s o g) (memberAddr (memberOf w) ((collDesc o.desc).doff + o.off.toNat))
        (leBytes (collDesc o.desc).outBytes o.result.toNat) →
      exec (.memberDelivery (.own id) q 0) s = .next ((u.serveMember o g (memberOf w) false).servedOne id q g.members.length fun x => x)) ∧
    (o.reduce = false →
      PutAt s u g (memberOf w) o.launch (barsOf o (memberOf w)) (sbOf s o g) (memberAddr (memberOf w) ((collDesc o.desc).doff + o.off.toNat)) (leBytes 256 o.data.toNat) →
      exec (.mcstDelivery (.own id) q 0) s = .next ((u.serveMember o g (memberOf w) false).servedOne id q g.members.length fun x => x))) ∧
  (∀ (s u : State) (p : GroupPacket) (g : GroupCopy) (w : Vector Word 4) (n : Nat) (tag : BitVec 32) (gone : BitVec 8),
    ∀ i ∈ [Instr.memberDelivery (.other p) n gone, .mcstDelivery (.other p) n gone, .xposeRankServed (.other p) tag n gone],
    (Names s p.die p.gid p.digest p.genuine p.rank g w →
      PutAt s u g (memberOf w) none (if p.arrive && (memberOf w).en then [(memberOf w).bar] else []) (p.bit.map fun b => (b.1.val, b.2.val))
        (memberAddr (memberOf w) p.off.toNat + p.place) p.bytes →
      (p.arrive = false → p.bit = none → exec i s = .next (u.answer (some g) 0)) ∧
      (p.arrive = true → (memberOf w).en = true → u.coreEnabled (memberOf w).core = true → p.bit = none →
        exec i s = .next ((u.updateBarrier (memberOf w).core none (memberOf w).bar (if p.err then .arriveErr else .arrive) 1).answer (some g) 0)) ∧
      (p.arrive = false → p.err = false → ∀ j b, p.bit = some (j, b) → exec i s = .next ((u.setBoardRange (memberOf w).core.die j.val b.val 1 false).answer (some g) 0))) ∧
    (((s.die p.die).groups.find? fun g => g.gid == p.gid) = none → exec i s = .next (s.refuse (0x0B, none))) ∧
    (((s.die p.die).groups.find? fun g => g.gid == p.gid) = some g →
      (g.isSealed = true → p.genuine = false → exec i s = .next (s.refuse (0x0C, some g))) ∧
      ((g.isSealed = true → p.genuine = true) → g.digest ≠ p.digest → exec i s = .next (s.refuse (0x0B, some g))))) ∧
  (∀ (s : State) (d : DieId) (r : ContribReq) (g : GroupCopy) (w : Vector Word 4) (pa : Nat), Names s d r.gid r.digest r.genuine r.rank g w →
    pa = memberAddr (memberOf w) r.off.toNat → s.rangeAssigned pa r.bytes = true → (∀ u ∈ s.poison, overlaps u 8 (s.localPa pa) r.bytes = false) →
    (r.own = none → r.ring = none → meeting (s.collFresh none (memberOf w) (s.localPa pa)) (s.localPa pa) r.bytes = [] → exec (.contributionRead d r) s = .next (s.sendGroup g (leBytes 256 (BitVec.ofNat 2048 (s.memRead (s.localPa pa) r.bytes)).toNat) fun t b => .row r.rank 0 (BitVec.ofNat 2048 (leNat b)) t)) ∧
    (∀ (id : Nat) (o : CollOp), r.own = some id → s.coll id = some o → s.collGroup o = some g → s.asksFor o d r = true → (o.readRows.lookup r.rank).isSome = false → o.absent = [] →
      meeting (s.collFresh (some o) (memberOf w) (s.localPa pa)) (s.localPa pa) r.bytes = [] →
      ∃ t, exec (.contributionRead d r) s = .next t ∧ t.mem = s.mem ∧ (∀ e, t.core e = s.core e) ∧
        t.coll id = some { o with readRows := (r.rank, BitVec.ofNat 2048 (s.memRead (s.localPa pa) r.bytes)) :: o.readRows })) ∧
  ∀ (s : State) (r : RemoteReq), (s.assigned r.off.toNat = false → exec (.remoteAccessArrival r) s = .next (s.send (.reply true 0 none))) ∧
    (s.assigned r.off.toNat = true →
      ((∀ v, r.op ≠ .store v) → (∃ u ∈ s.poison, overlaps u 8 r.off.toNat r.size.val = true) →
        exec (.remoteAccessArrival r) s = .next (s.send (.poisonReply (BitVec.ofNat 64 r.off.toNat)))) ∧
      (r.op = .load → (∀ u ∈ s.poison, overlaps u 8 r.off.toNat r.size.val = false) → exec (.remoteAccessArrival r) s = .next (s.send (.reply false (BitVec.ofNat 64 (s.memRead r.off.toNat r.size.val)) none))) ∧
      ∀ v, r.op = .store v → s.memOk → ∃ t, exec (.remoteAccessArrival r) s = .next t ∧ t.memOk ∧ t.out = s.out ++ [.reply false 0 none] ∧ (∀ c x, t.ctx c x = s.ctx c x) ∧
        (∀ i < r.size.val, (Memory.get t.mem (r.off.toNat + i)).toNat = v.toNat % 2 ^ (8 * r.size.val) / 256 ^ i % 256) ∧
        ∀ q, q < r.off.toNat ∨ r.off.toNat + r.size.val ≤ q → Memory.get t.mem q = Memory.get s.mem q)

/-- qfetch writes 0 for an empty or parked queue, and for a disabled one (log entry 49), parks one whose tail is out of range and writes 1, and otherwise latches and writes word 0 of its head entry; qfetch.adv moves the head past the entry latched for its queue, writes word 1, and keeps a launch entry, with its queue and its tag, for the dispatch of its record; bfext extracts a field; sigwait writes the word once it is at least the operand and stalls the hart before; dispatch places a group that its rules admit, on the contexts that its operand names (log entry 73), and writes 0. Their causes: a queue number above 63, an entry not latched, a field past bit 63, a misaligned or unassigned address, an operand with reserved bits set (log entry 49) (R331, R332, R333, R334, R338, R352; derived) -/
def Obligations.FrontEndWords : Prop :=
  ∀ (s : State) (rd rs1 rs2 : XReg) (h : Hart), h = s.hartNow →
    (∀ r : XReg, h.get r = if r = 0 then 0 else h.x[r]) ∧
    (∀ (q : Fin 64) (y : LQueue), (h.get rs1).toNat = q.val → y = (s.die s.hart.1).queue q →
      (y.en = false ∨ y.park = true ∨ y.head = y.tail → exec (.qfetch rd rs1) s = .next (s.mapHart fun h => { h.put rd 0 with latch := h.latch.filter fun e => e.1 != q })) ∧
      (y.en = true → y.park = false → y.head ≠ y.tail → 2 ^ y.lg < (y.tail - y.head).toNat →
        exec (.qfetch rd rs1) s = .next ((s.park s.hart.1 q 2 0).mapHart fun h => { h.put rd 1 with latch := h.latch.filter fun e => e.1 != q })) ∧
      (∀ e w0 w1 pa : Nat, y.en = true → y.park = false → y.head ≠ y.tail → (y.tail - y.head).toNat ≤ 2 ^ y.lg → e = y.base.toNat + 16 * (y.head.toNat % 2 ^ y.lg) →
        s.localHbm e = true → s.localHbm (e + 15) = true → (∀ u ∈ s.poison, overlaps u 8 e 16 = false) → w0 = Memory.read s.mem e 8 → w1 = Memory.read s.mem (e + 8) 8 →
        2 ^ 63 ≤ w0 → w0 / 2 ^ 52 % 2 ^ 9 = 0 → pa = w0 % 2 ^ 52 → s.localHbm pa = true → (w0 / 2 ^ 61 % 4 = 0 ∧ pa % 256 = 0 ∨ w0 / 2 ^ 61 % 4 = 1 ∧ pa % 64 = 0) →
        exec (.qfetch rd rs1) s = .next (s.mapHart fun h => { h.put rd (BitVec.ofNat 64 w0) with
          latch := (q, y.head, BitVec.ofNat 64 w0, BitVec.ofNat 64 w1) :: h.latch.filter fun e => e.1 != q })) ∧
      (∀ w0 w1, h.latch.lookup q = some (y.head, w0, w1) →
        exec (.qfetchAdv rd rs1) s = .next (((s.mapQueue s.hart.1 q fun z => { z with head := z.head + 1 }).mapDie s.hart.1 fun z =>
          { z with taken := if w0.toNat / 2 ^ 61 % 4 = 0 then z.taken ++ [⟨z.nextId, q, w0.toNat % 2 ^ 52, w1⟩] else z.taken, nextId := if w0.toNat / 2 ^ 61 % 4 = 0 then z.nextId + 1 else z.nextId }).mapHart fun h =>
          { h.put rd w1 with latch := h.latch.filter fun e => e.1 != q })) ∧
      (h.latch.lookup q = none ∨ (∃ n w0 w1, h.latch.lookup q = some (n, w0, w1) ∧ n ≠ y.head) → exec (.qfetchAdv rd rs1) s = .next (s.cause 30))) ∧
    (64 ≤ (h.get rs1).toNat → exec (.qfetch rd rs1) s = .next (s.cause 24) ∧ exec (.qfetchAdv rd rs1) s = .next (s.cause 24)) ∧
    (∀ pos len : Nat, pos = (h.get rs2).toNat % 64 → len = (h.get rs2).toNat / 256 % 128 →
      (pos + len ≤ 64 → exec (.bfext rd rs1 rs2) s = .next (s.mapHart fun h => h.put rd (BitVec.ofNat 64 ((h.get rs1).toNat / 2 ^ pos % 2 ^ len)))) ∧
      (64 < pos + len → exec (.bfext rd rs1 rs2) s = .next (s.cause 25))) ∧
    (∀ pa v : Nat, pa = (h.get rs1).toNat → v = s.memRead (s.localPa pa) 8 →
      (pa % 8 ≠ 0 → exec (.sigwait rd rs1 rs2) s = .next (s.cause 26)) ∧
      (pa % 8 = 0 → s.assigned pa = false → exec (.sigwait rd rs1 rs2) s = .next (s.cause 27)) ∧
      (pa % 8 = 0 → s.assigned pa = true → (h.get rs2).toNat ≤ v ∨ h.woken = true →
        exec (.sigwait rd rs1 rs2) s = .next (s.mapHart fun h => { h.put rd (BitVec.ofNat 64 v) with stall := none, woken := false })) ∧
      (pa % 8 = 0 → s.assigned pa = true → v < (h.get rs2).toNat → h.woken = false →
        exec (.sigwait rd rs1 rs2) s = .next (s.mapHart fun h => { h with stall := some (rd, rs1, rs2) }))) ∧
    ((h.get rs2).toNat / 2 ^ 10 % 64 ≠ 0 ∨ (h.get rs2).toNat / 2 ^ 48 % 2 ^ 15 ≠ 0 → exec (.dispatch rd rs1 rs2) s = .next (s.cause 28)) ∧
    (∀ (pa : Nat) (e : Taken), ((s.die s.hart.1).launches.find? fun l => l.recPa == pa) = none → ((s.die s.hart.1).taken.find? fun e => e.recPa == pa) = some e →
      (s.dispatchLaunch pa).2.queue = e.queue ∧ (s.dispatchLaunch pa).2.tag = e.tag ∧ ((s.dispatchLaunch pa).1.die s.hart.1).taken = (s.die s.hart.1).taken.erase e) ∧
    ∀ (a : DispatchArg) (t : State) (l m : Launch) (i : Image) (c : CoreId) (xs : List CtxId), dispatchArg (h.get rs2).toNat = some a → (h.get rs1).toNat % 256 = 0 →
      s.readFault (h.get rs1).toNat 256 = none → s.dispatchLaunch (h.get rs1).toNat = (t, l) →
      (l.checked = true ∧ m = l ∨ l.checked = false ∧ t.launchChecks s.hart.1 l = ([], m) ∧ t.spaceCodes s.hart.1 m = [] ∧ t.lateCodes s.hart.1 l = []) →
      c = coreOn s.hart.1 a.core → xs = (ctxIds.filter fun x => decide (a.first ≤ x.val ∧ x.val < a.first + m.groupSize a.group)) → xs.length = m.groupSize a.group →
      a.group < m.groups → m.isPlaced a.group = false → c ∈ t.namedCores s.hart.1 m.cores → (m.whole = true → (t.namedCores s.hart.1 m.cores)[a.group]? = some c) →
      (∀ x ∈ xs, (t.core c).isVacant x = true) → t.savedGroup c (some m.id) = none → t.fits c (m.need a.group) 0 = true → t.recordFits m = true →
      ((∃ z ∈ (t.die s.hart.1).placed, z.id = m.id) ∨ t.boardsFree s.hart.1 m = true) → t.readImage m.image = some i →
      exec (.dispatch rd rs1 rs2) s = .next ((t.dispatchGroup m i a c xs).mapHart fun h => h.put rd 0)

/-- For a record that stands in the trap queue and is not one that waits for the next handler (R416): RESUME ends it, and the context issues the bundle again, by the record's words only where they differ from those it would issue (log entry 37); ADVANCE of a src 0 record goes on at next; KILL retires the context; SWITCH with an area begins the save. Each leaves memory, but for KILL, and the scalar, predicate and vector registers as they were. REPLAY lets a stopped command go on; ABANDON ends it with error 0x05; a write of TQHEAD of at most the records present, but for those that wait for the next handler, takes those before it out of the queue and, where no core or command waits for a place, changes nothing else, and one of more changes nothing; a write of the window stores to scratchpad, acts as RCTL or ECTL, and on a frozen core writes a scalar register and the PC of a context, s0 apart (the PC as a multiple of 4, log entry 74); on a core without a record it leaves every register (R357, R360, R361, R362, R363, R368, R374, R416, R235, R358, R359; derived) -/
def Obligations.HandlerReturns : Prop :=
  ((∀ (s : State) (c : CoreId) (o : Outstanding), s.served c = some o →
    (∃ t, exec (.resume c) s = .next t ∧ (t.core c).record = none ∧ t.mem = s.mem ∧ t.traps = s.traps ∧
      (∀ e x, (t.ctx e x).s = (s.ctx e x).s ∧ (t.ctx e x).p = (s.ctx e x).p ∧ (t.ctx e x).v = (s.ctx e x).v ∧ (t.ctx e x).pc = (s.ctx e x).pc) ∧
      (t.ctx c o.rcd.ctx).replay = if o.rcd.src = 0 ∧ o.words ≠ [] ∧ o.words.take ((s.core c).nextWords o.rcd.ctx).length ≠ (s.core c).nextWords o.rcd.ctx
        then some ⟨o.words, o.rcd.smask, o.rcd.code⟩ else (s.ctx c o.rcd.ctx).replay) ∧
    (o.rcd.src ≠ 0 → exec (.advance c) s = exec (.resume c) s) ∧
    (o.rcd.src = 0 → ∃ t, exec (.advance c) s = .next t ∧ (t.core c).record = none ∧ t.mem = s.mem ∧ t.traps = s.traps ∧ (t.ctx c o.rcd.ctx).pc = o.rcd.next ∧
      (t.ctx c o.rcd.ctx).replay = none ∧ (∀ e x, e ≠ c ∨ x ≠ o.rcd.ctx → (t.ctx e x).pc = (s.ctx e x).pc) ∧
      ∀ e x, (t.ctx e x).s = (s.ctx e x).s ∧ (t.ctx e x).p = (s.ctx e x).p ∧ (t.ctx e x).v = (s.ctx e x).v) ∧
    (∀ k, (s.ctx c o.rcd.ctx).st ≠ .free → (s.ctx c o.rcd.ctx).st ≠ .retired → (s.ctx c o.rcd.ctx).st ≠ .saved → ∃ t, exec (.kill c k) s = .next t ∧
      (t.core c).record = none ∧ (t.ctx c o.rcd.ctx).st = .retired ∧ (t.ctx c o.rcd.ctx).status = (if (s.ctx c o.rcd.ctx).grd then .discarded else .killed)) ∧
    (s.areaOk c (s.core c).saveArea.toNat = true → ∃ t, exec (.switch c) s = .next t ∧ (t.core c).record = none ∧ (t.core c).pctlState = 2 ∧ (t.core c).running = none ∧
      t.mem = s.mem ∧ ∀ e x, (t.ctx e x).s = (s.ctx e x).s ∧ (t.ctx e x).v = (s.ctx e x).v ∧ (t.ctx e x).pc = (s.ctx e x).pc)) ∧
  ∀ (s : State) (c : CoreId) (tag : BitVec 32) (q : Command), (s.core c).command tag = some q →
    (s.lateCommand c tag = true → exec (.replay c tag) s = .next s ∧ exec (.abandon c tag) s = .next s) ∧
    (s.lateCommand c tag = false → (∃ t, exec (.replay c tag) s = .next t ∧ (t.core c).command tag = some { q with stopped := false, waiting := none } ∧ t.mem = s.mem ∧ ∀ e x, t.ctx e x = s.ctx e x) ∧
    (q.stopped = true → q.eng = .copy → ∃ t, exec (.abandon c tag) s = .next t ∧ (t.core c).command tag = none ∧
      (t.core c).eng0.active[15] = BitVec.ofNat 64 (0x05 * 2 ^ 40)) ∧
    (q.stopped = true → q.eng = .xpose → ∃ t, exec (.abandon c tag) s = .next t ∧ (t.core c).command tag = none))) ∧
  (∀ (s : State) (cl : ClusterId) (v : Word), (∀ c : CoreId, c.cluster = cl → (s.core c).record = none ∧ (s.core c).copyq = []) →
    ((s.trapQ cl).records.length - (s.trapQ cl).late < (v - (s.trapQ cl).head).toNat → exec (.tqheadWrite cl v) s = .next s) ∧
    ((v - (s.trapQ cl).head).toNat ≤ (s.trapQ cl).records.length - (s.trapQ cl).late → exec (.tqheadWrite cl v) s =
      .next (s.setTrapQ cl { s.trapQ cl with records := (s.trapQ cl).records.drop (v - (s.trapQ cl).head).toNat, head := v }))) ∧
  ∀ (s : State) (c : CoreId) (off : BitVec 24) (v : Word), s.coreEnabled c = true →
    (off.toNat % 8 = 0 → off.toNat < 0x200000 → s.memOk → ∃ t, exec (.windowWrite c off v) s = .next t ∧ t.memOk ∧
      (∀ i < 8, (Memory.get t.mem (0x10000000000 + c.val * 0x200000 + off.toNat + i)).toNat = v.toNat / 256 ^ i % 256) ∧
      (∀ p, p < 0x10000000000 + c.val * 0x200000 + off.toNat ∨ 0x10000000000 + c.val * 0x200000 + off.toNat + 8 ≤ p → Memory.get t.mem p = Memory.get s.mem p) ∧
      ∀ e x, (t.ctx e x).s = (s.ctx e x).s ∧ (t.ctx e x).v = (s.ctx e x).v ∧ (t.ctx e x).pc = (s.ctx e x).pc) ∧
    (off = 0x600000 → (v.toNat % 8 = 1 → exec (.windowWrite c off v) s = exec (.resume c) s) ∧ (v.toNat % 8 = 2 → exec (.windowWrite c off v) s = exec (.advance c) s) ∧
      (v.toNat % 8 = 3 → exec (.windowWrite c off v) s = exec (.kill c (v.extractLsb' 56 8)) s) ∧ (v.toNat % 8 = 4 → exec (.windowWrite c off v) s = exec (.switch c) s)) ∧
    (off = 0x600008 → (v.toNat % 4 = 1 → exec (.windowWrite c off v) s = exec (.replay c (v.extractLsb' 32 32)) s) ∧
      (v.toNat % 4 = 2 → exec (.windowWrite c off v) s = exec (.abandon c (v.extractLsb' 32 32)) s)) ∧
    ((s.core c).record ≠ none → ∀ x : CtxId,
      (∀ i : SReg, off.toNat = 0x400000 + x.val * 0x4000 + 8 * i.val → ∃ t, exec (.windowWrite c off v) s = .next t ∧ t.mem = s.mem ∧
        ∀ (e : CoreId) (y : CtxId) (r : SReg), (t.ctx e y).s[r] = if e = c ∧ y = x ∧ r = i ∧ i ≠ 0 then v else (s.ctx e y).s[r]) ∧
      (off.toNat = 0x400310 + x.val * 0x4000 → ∃ t, exec (.windowWrite c off v) s = .next t ∧ t.mem = s.mem ∧ (t.ctx c x).pc.toNat = v.toNat / 4 * 4 % 2 ^ 18 ∧
        ∀ e y, (t.ctx e y).s = (s.ctx e y).s)) ∧
    ((s.core c).record = none → 0x200000 ≤ off.toNat → off.toNat / 8 ≠ 0xC0000 → off.toNat / 8 ≠ 0xC0001 → exec (.windowWrite c off v) s = .next s)

/-- A freeze of a counted cause that has reached the limit, 2 to the gauntlet's logarithm held between 16 and 28, takes a FREEZE_TIMEOUT (0x03) record with the row of its cause; a record not resumed within the service limit kills its context; a kill request retires the context, KILLED, or DISCARDED under a guard, and takes a saved context out of its group's image; the kill of a task without a guard writes its record of R375 at the tail of the ring, where there is one with room, and counts a drop where it is full (R354, R355, R357, R364, R374, R375; derived) -/
def Obligations.LimitsAndKills : Prop :=
  (∀ (s : State) (c : CoreId) (f : Freeze), (s.core c).freeze = some f → f.cause ∈ [FreezeCause.reply, .staging, .contention, .walk, .fence, .fenceMatrix, .wsig, .random, .matrix, .send] →
    (s.core c).record = none → 2 ^ (min 28 (max 16 (s.die c.die).gauntLg.toNat)) ≤ f.count → (s.trapQ c.cluster).records.length < 32 →
    ∃ t r ws, exec (.gauntletTimeout c) s = .next t ∧ t.mem = s.mem ∧ (∀ e x, t.ctx e x = s.ctx e x) ∧ (t.core c).record = some ⟨r, true, ws⟩ ∧
      r.seq = (s.trapQ c.cluster).seq ∧ r.core = c ∧ r.ctx = f.ctx ∧ r.code = 0x03 ∧ r.smask = 0 ∧ r.src = (if f.committed then 1 else 0) ∧ r.info.toNat = f.cause.row ∧
      (t.trapQ c.cluster).records = (s.trapQ c.cluster).records ++ [r]) ∧
  (∀ (s : State) (c : CoreId) (o : Outstanding), (s.core c).record = some o → (s.die c.die).svclim ≠ 0 → (s.ctx c o.rcd.ctx).st ≠ .free → (s.ctx c o.rcd.ctx).st ≠ .retired →
    (s.ctx c o.rcd.ctx).st ≠ .saved → ∃ t, exec (.handlerTimeout c) s = .next t ∧ (t.core c).record = none ∧ (t.ctx c o.rcd.ctx).st = .retired ∧
      (t.ctx c o.rcd.ctx).status = if (s.ctx c o.rcd.ctx).grd then .discarded else .killed) ∧
  (∀ (s : State) (d : DieId) (n : BitVec 8) (x : CtxId) (c : CoreId), c = coreOn d n.toNat → (s.ctx c x).st ≠ .free → (s.ctx c x).st ≠ .retired → (s.ctx c x).st ≠ .saved →
    ∃ t, exec (.kreqLive d n x false) s = .next t ∧ (t.ctx c x).st = .retired ∧ (t.ctx c x).status = if (s.ctx c x).grd then .discarded else .killed) ∧
  (∀ (s : State) (d : DieId) (n : BitVec 8) (x : CtxId) (area : BitVec 36) (g : SavedGroup) (l : Launch), (s.die d).saved = [g] → g.core = coreOn d n.toNat →
    g.area = area.toNat * 65536 → x ∈ g.ctxs → ((s.die d).launches.find? fun l => l.id == g.launch) = some l → (s.savedCtx g l x).st ≠ .retired →
    ∃ t, exec (.kreqImage d n x false area) s = .next t ∧ ∀ h ∈ (t.die d).saved, x ∉ h.ctxs) ∧
  ∀ (s : State) (d : DieId) (n : BitVec 8) (x : CtxId) (c : CoreId) (l : Launch) (y : Die) (base : Nat), c = coreOn d n.toNat → y = s.die d → s.memOk →
    (s.ctx c x).st ∉ [CtxState.free, .retired, .saved] → (s.ctx c x).grd = false → s.launchOf c x = some l →
    (y.krLsize = 0 → ∃ t, exec (.kreqLive d n x false) s = .next t ∧ (t.die d).krTail = y.krTail ∧ (t.die d).krDrop = y.krDrop) ∧
    (y.krLsize ≠ 0 → (y.krTail - y.krHead).toNat = 2 ^ y.krLsize.toNat → ∃ t, exec (.kreqLive d n x false) s = .next t ∧ (t.die d).krTail = y.krTail ∧
      (t.die d).krDrop = y.krDrop + 1) ∧
    (y.krLsize ≠ 0 → (y.krTail - y.krHead).toNat ≠ 2 ^ y.krLsize.toNat → base = y.krbase.toNat + 512 * (y.krTail.toNat % 2 ^ y.krLsize.toNat) →
      ∃ t, exec (.kreqLive d n x false) s = .next t ∧ (t.die d).krTail = y.krTail + 1 ∧ (t.die d).krDrop = y.krDrop ∧ Memory.read t.mem base 8 = l.recPa % 2 ^ 64 ∧
        Memory.read t.mem (base + 8) 8 = (s.ctx c x).task.toNat + c.val * 2 ^ 32 + x.val * 2 ^ 48 + 0x3D * 2 ^ 56 ∧ Memory.read t.mem (base + 16) 8 = (s.ctx c x).pc.toNat ∧
        (∀ i < 4, Memory.read t.mem (base + 32 + 8 * i) 8 = 0) ∧
        ((∀ a ∈ (s.core c).accesses, a.ctx = x → isStore a.kind = false) → ∀ i < 61, Memory.read t.mem (base + 24 + 8 * i) 8 = 0) ∧
        ∀ a, (s.core c).accesses = [a] → a.ctx = x → a.kind = .store → a.pa < 2 ^ 52 →
          Memory.read t.mem (base + 24) 8 = 1 ∧ Memory.read t.mem (base + 64) 8 = a.pa / 8 * 8 ∧ Memory.read t.mem (base + 72) 8 = 8)

/-- A request that names an area, on a core that holds a live task and has none pending, is taken: the state becomes 1 and blocked contexts are held; the save begins at once when forced, after the limit, or once every context is held or retired, and then no context issues; a save waits while a context is Placed (the model's reading of R17, log entry 81); one whose core has drained puts the pieces of the image at their offsets in the area, every other byte of the area zero and every byte outside it unchanged (the area is the one of the request, log entry 97), leaves every context of the group Saved, the queue and the buffer empty, and the core free: each live context's scalars and PC stand at the places of R371, and the scratchpad at that of R370; the launches that share the core are noted as groups of one image, by the model's reading (log entry 27). A decision whose first candidate is a saved group that its core admits puts it back onto its contexts: scratchpad, scalars, predicates, vectors, loop state and PC from the image, %pts the larger of the image's and the clocks that R217 and R229 give, Placed or Retired as the image says, and queues them for release (R366, R367, R368, R369, R370, R371, R373, R17; derived) -/
def Obligations.Preemption : Prop :=
  (∀ (s : State) (c : CoreId) (area : BitVec 52) (x : CtxId), (s.core c).pctlState = 0 → s.coreEnabled c = true → s.areaOk c area.toNat = true → (s.ctx c x).st ∉ [CtxState.free, .retired, .saved] →
    (∃ t, exec (.pctlReq c area) s = .next t ∧ (t.core c).pctlState = 1 ∧ (t.core c).pctlArea = area ∧ (t.core c).pctlImg = area ∧ t.mem = s.mem ∧
      (∀ e y, (t.ctx e y).st = (s.ctx e y).st ∧ (t.ctx e y).s = (s.ctx e y).s ∧ (t.ctx e y).held = ((s.ctx e y).held || decide (e = c ∧ (s.ctx e y).st = .blocked)))) ∧
    ((s.core c).record = none → ∃ t, exec (.pctlForce c area) s = .next t ∧ (t.core c).pctlState = 2 ∧ (t.core c).pctlArea = area ∧ (t.core c).pctlImg = area ∧ (t.core c).running = none ∧ t.mem = s.mem ∧
      ∀ e y, (t.ctx e y).st = (s.ctx e y).st ∧ (t.ctx e y).s = (s.ctx e y).s)) ∧
  (∀ (s : State) (c : CoreId), (s.core c).pctlState = 1 → (s.core c).record = none →
    ((s.core c).pctlForce = false → ∃ t, exec (.forcedSwitchTimeout c) s = .next t ∧ (t.core c).pctlState = 2 ∧ (t.core c).running = none ∧ t.mem = s.mem ∧ ∀ e y, (t.ctx e y).s = (s.ctx e y).s) ∧
    ((∀ y ∈ (s.core c).present, (s.ctx c y).held = true ∨ (s.ctx c y).st = .retired) → (∃ y ∈ (s.core c).present, (s.ctx c y).st ≠ .retired) →
      ∃ t, exec (.save c) s = .next t ∧ (t.core c).pctlState = 2 ∧ (t.core c).running = none ∧ t.mem = s.mem ∧ ∀ e y, (t.ctx e y).s = (s.ctx e y).s)) ∧
  (∀ (s : State) (c : CoreId), (s.core c).pctlState = 2 → s.drained c = true → (s.core c).liveCtxs ≠ [] → ∃ t, exec (.saveComplete c) s = .next t ∧ (t.core c).pctlState = 3 ∧
    (t.core c).running = none ∧ (t.core c).copyq = [] ∧ (t.core c).mitten = [] ∧ (∀ y, (t.ctx c y).st = if (s.ctx c y).st = .free then .free else .saved) ∧
    (t.die c.die).saved = (s.die c.die).saved ++ s.savedGroups c (s.core c).pctlImg.toNat ∧ (∀ e, e ≠ c → ∀ y, (t.ctx e y).s = (s.ctx e y).s) ∧
    t.mem = (s.groupPieces c).foldl (fun m p => Memory.setBytes m ((s.core c).pctlImg.toNat + p.1) p.2) (Memory.clear s.mem (s.core c).pctlImg.toNat 0x400000) ∧
    ∀ a : Nat, a = (s.core c).pctlImg.toNat → ImageFits s c → s.memOk → a + 0x400000 ≤ 0x10000000000 → t.memOk ∧
      (∀ p, p < a ∨ a + 0x400000 ≤ p → Memory.get t.mem p = Memory.get s.mem p) ∧
      (∀ o < 0x200000, Memory.get t.mem (a + 0x200000 + o) = Memory.get s.mem (0x10000000000 + c.val * 0x200000 + o)) ∧
      ∀ x ∈ (s.core c).liveCtxs, (∀ i : SReg, Memory.read t.mem (a + 0x10000 + 0x4000 * x.val + 8 * i.val) 8 = (s.ctx c x).s[i].toNat) ∧
        ((s.ctx c x).via = none → Memory.read t.mem (a + 0x10000 + 0x4000 * x.val + 0x310) 8 = (s.ctx c x).pc.toNat)) ∧
  (∀ (s : State) (c : CoreId), (s.core c).pctlState = 2 → (∃ y, (s.ctx c y).st = .placed) → exec (.saveComplete c) s = .next s) ∧
  ∀ (s : State) (d : DieId) (q : Fin 64) (pick : Nat) (g : SavedGroup) (l : Launch) (i : Image) (rest : List (Fin 64 × Cand)), (s.die d).batch = [] → g.core.die = d →
    (s.die d).ranked = (q, .saved g) :: rest → (s.equalHeld d q rest).contains g.core = false → ((s.die d).saved.filter fun h => h.core == g.core && h.area == g.area) = [g] →
    ((s.die d).launches.find? fun l => l.id == g.launch) = some l → g.group < l.groups → s.readImage l.image = some i → (∀ x ∈ g.ctxs, (s.core g.core).isVacant x = true) →
    s.claimsFree g = true → (s.core g.core).pctlState ≠ 1 →
    s.fits g.core { l.need g.group with n := 0, current := (g.ctxs.countP fun x => (s.savedCtx g l x).st == .placed) * l.current } 0 = true →
    (∀ a ∈ (s.die d).arms, a.core = g.core → a.saved ≠ some g.area) → g.area + 0x400000 ≤ 0x10000000000 → s.memOk →
    ∃ t, exec (.placementDecision d pick) s = .next t ∧ t.memOk ∧ (t.core g.core).restoring = true ∧ (∀ h ∈ (t.die d).saved, h.core = g.core → h.area ≠ g.area) ∧
      (∀ x ∈ g.ctxs, (g.core, x) ∈ (t.die d).batch) ∧
      (∀ o < 0x200000, Memory.get t.mem (0x10000000000 + g.core.val * 0x200000 + o) = Memory.get s.mem (g.area + 0x200000 + o)) ∧
      (∀ p, p < 0x10000000000 + g.core.val * 0x200000 ∨ 0x10000000000 + (g.core.val + 1) * 0x200000 ≤ p → Memory.get t.mem p = Memory.get s.mem p) ∧
      ∀ x ∈ g.ctxs, ∀ a : Nat, a = g.area + 0x10000 + 0x4000 * x.val →
        (t.ctx g.core x).st = (if Memory.read s.mem (a + 0x338) 8 % 4 = 2 then .retired else .placed) ∧ (t.ctx g.core x).pc.toNat = Memory.read s.mem (a + 0x310) 8 % 2 ^ 18 ∧
        (∀ r : SReg, (t.ctx g.core x).s[r] = if r = 0 then 0 else BitVec.ofNat 64 (Memory.read s.mem (a + 8 * r.val) 8)) ∧
        (∀ r : PReg, (t.ctx g.core x).p[r] = BitVec.ofNat 64 (Memory.read s.mem (a + 0x200 + 8 * r.val) 8)) ∧
        (∀ r : VNum, (t.ctx g.core x).v[r] = BitVec.ofNat 2048 (Memory.read s.mem (a + 0x1000 + 256 * r.val) 256)) ∧
        (t.ctx g.core x).loop.word.toNat = Memory.read s.mem (a + 0x318) 8 ∧
        (t.ctx g.core x).pts = BitVec.ofNat 64 (max (Memory.read s.mem (a + 0x300) 8) (max (s.die d).clock (g.clockOf x)))

/-- HOME_BANK_ACCESS of an access that may go and whose address lies in HBM performs it: a store writes its bytes and no others; a load takes the bytes as they stand, where no write of another path of its core is unordered with it (R228); an atomic takes the old value and writes the one that R208 gives; a near-bank operation gives each active element of its 256 bytes the value of R209, leaves the others and every other byte, and is over. GLOBAL_REPLY gives the waiting destination the bytes of a load or the old value of an atomic, extended by its form, from the home or, for another package, from the reply, with the poison that it tells of; after the last acquire of a bundle, its loads of the core's scratchpad read what then stands there, and its stores that waited take place; STORE_ACK ends a performed store; each of NEGATIVE_REPLY, ROUTE_TIMEOUT and REPLY_TIMEOUT counts one lost access that left the package and ends it: a load or an atomic then gets all-ones bytes, and a store is lost (R193, R195, R202, R208, R209, R214, R216, R220, R222, R380; derived) -/
def Obligations.AccessesAtHome : Prop :=
  (∀ (n m x y : Nat), n = 4 ∨ n = 8 → m < 256 ^ n → x < 256 ^ n → amoNew .add n m x y = (m + x) % 256 ^ n ∧ amoNew .and n m x y = m &&& x ∧ amoNew .or n m x y = m ||| x ∧
    amoNew .xor n m x y = m ^^^ x ∧ amoNew .swap n m x y = x ∧ amoNew .cas n m x y = (if m = y then x else m) ∧ amoNew .umax n m x y = max m x ∧
    ((amoNew .min n m x y : Nat) : Int).bmod (256 ^ n) = min ((m : Int).bmod (256 ^ n)) ((x : Int).bmod (256 ^ n)) ∧
    ((amoNew .max n m x y : Nat) : Int).bmod (256 ^ n) = max ((m : Int).bmod (256 ^ n)) ((x : Int).bmod (256 ^ n)) ∧
    amoNew .fadd n m x y = fpAdd (if n = 4 then fp32 else fp64) m x) ∧
  (∀ r ∈ nearBankValues, r.1.width = r.2.1 ∧ ∀ m v, r.1.apply m v = r.2.2 m v) ∧ (∀ op : NbOp, ∃ r ∈ nearBankValues, r.1 = op) ∧
  ∀ (s : State) (c : CoreId) (k : Nat) (a : Access), (s.core c).access k = some a →
    (a.performed = false → (s.core c).waitsFor s a = false → regionClass a.pa = some .hbm → s.poison = [] → s.memOk →
      (a.kind = .store → ∃ t, exec (.homeBankAccess c k false none) s = .next t ∧ t.memOk ∧ ((t.core c).access k).map (·.performed) = some true ∧
        (∀ i < a.size, (Memory.get t.mem (a.pa + i)).toNat = a.data.toNat / 256 ^ i % 256) ∧ (∀ p, p < a.pa ∨ a.pa + a.size ≤ p → Memory.get t.mem p = Memory.get s.mem p) ∧
        ∀ e x, (t.ctx e x).s = (s.ctx e x).s ∧ (t.ctx e x).p = (s.ctx e x).p ∧ (t.ctx e x).v = (s.ctx e x).v) ∧
      (∀ sg, a.kind = .load sg → a.acq = true ∨ meeting ((s.core c).openFor c .core) a.pa a.size = [] → ∃ t, exec (.homeBankAccess c k false none) s = .next t ∧ t.mem = s.mem ∧
        ((t.core c).access k).map (fun b => (b.performed, b.result)) = some (true, BitVec.ofNat 64 (Memory.read s.mem a.pa a.size)) ∧ ∀ e x, (t.ctx e x).s = (s.ctx e x).s ∧ (t.ctx e x).p = (s.ctx e x).p ∧ (t.ctx e x).v = (s.ctx e x).v) ∧
      (∀ op, a.kind = .amo op → ∃ t, exec (.homeBankAccess c k false none) s = .next t ∧ t.memOk ∧
        ((t.core c).access k).map (fun b => (b.performed, b.result)) = some (true, BitVec.ofNat 64 (Memory.read s.mem a.pa a.size)) ∧
        (∀ i < a.size, (Memory.get t.mem (a.pa + i)).toNat =
          amoNew op a.size (Memory.read s.mem a.pa a.size) (a.data.toNat % 2 ^ (8 * a.size)) a.cmp.toNat / 256 ^ i % 256) ∧
        (∀ p, p < a.pa ∨ a.pa + a.size ≤ p → Memory.get t.mem p = Memory.get s.mem p) ∧ ∀ e x, (t.ctx e x).s = (s.ctx e x).s ∧ (t.ctx e x).p = (s.ctx e x).p ∧ (t.ctx e x).v = (s.ctx e x).v) ∧
      (∀ op, a.kind = .nbop op → ∃ t, exec (.homeBankAccess c k false none) s = .next t ∧ t.memOk ∧ (t.core c).access k = none ∧
        (∀ l < 256 / op.width, Memory.read t.mem (a.pa + l * op.width) op.width = if a.mask.getLsbD l
          then op.apply (Memory.read s.mem (a.pa + l * op.width) op.width) (elem a.data (8 * op.width) l) % 256 ^ op.width else Memory.read s.mem (a.pa + l * op.width) op.width) ∧
        (∀ p, p < a.pa ∨ a.pa + 256 ≤ p → Memory.get t.mem p = Memory.get s.mem p) ∧ ∀ e x, (t.ctx e x).s = (s.ctx e x).s ∧ (t.ctx e x).p = (s.ctx e x).p ∧ (t.ctx e x).v = (s.ctx e x).v)) ∧
    (a.performed = true → a.size ∈ [1, 2, 4, 8] → ∀ (v : Word) (err : Bool),
      (regionClass a.pa = some .hbm →
        (∀ sg, a.kind = .load sg → a.bufMask = 0 → ∃ t, exec (.globalReply c k v err) s = .next t ∧ Replied s t c a (extended sg a.size (a.result.toNat % 256 ^ a.size))) ∧
        ∀ op, a.kind = .amo op → ∃ t, exec (.globalReply c k v err) s = .next t ∧ Replied s t c a (extended (op != .fadd) a.size (a.result.toNat % 256 ^ a.size))) ∧
      (regionClass a.pa = some .remote →
        (∀ sg, a.kind = .load sg → a.bufMask = 0 → ∃ t, exec (.globalReply c k v err) s = .next t ∧ Replied s t c { a with poisoned := err } (extended sg a.size (v.toNat % 256 ^ a.size))) ∧
        ∀ op, a.kind = .amo op → ∃ t, exec (.globalReply c k v err) s = .next t ∧ Replied s t c { a with poisoned := err } (extended (op != .fadd) a.size (v.toNat % 256 ^ a.size)))) ∧
    (a.performed = true → a.kind = .store → ∃ t, exec (.storeAck c k) s = .next t ∧ (t.core c).access k = none ∧ t.mem = s.mem ∧ ∀ e x, (t.ctx e x).s = (s.ctx e x).s ∧ (t.ctx e x).p = (s.ctx e x).p ∧ (t.ctx e x).v = (s.ctx e x).v) ∧
    (a.performed = true → regionClass a.pa = some .remote → ∀ i ∈ [Instr.negativeReply c k, .routeTimeout c k, .replyTimeout c k], ∃ t, exec i s = .next t ∧
      t.pkg.lost = s.pkg.lost + 1 ∧ (t.core c).access k = none ∧ (a.acq = false → t.mem = s.mem) ∧ ∀ e x, (t.ctx e x).s = (s.ctx e x).s ∧ (t.ctx e x).p = (s.ctx e x).p ∧ (t.ctx e x).v = (s.ctx e x).v ∧ (a.size ∈ [1, 2, 4, 8] →
        (∀ sg, a.kind = .load sg → a.bufMask = 0 → Replied s t c a (extended sg a.size (256 ^ a.size - 1))) ∧
        ∀ op, a.kind = .amo op → Replied s t c a (extended (op != .fadd) a.size (256 ^ a.size - 1))))

/-- A walk through three valid levels gives the leaf's page with its class, policy and seal, and PAGE_WALK keeps it (log entry 12), ends the walks of that address and answers the cores that wait for them (log entry 17); PTS_TICK counts one for 256 running cycles; RANDOM_REFILL adds one vector while fewer than 16 wait, on an enabled core that is not frozen or whose freeze awaits it; CONTEXT_FREE frees a retired context whose work is over; GUARD_COMMIT_COMPLETE drains what is left of the task's buffer: the bytes that the mask of each unit in HBM names reach memory, no others change, and no unit of the task is left (R17, R217, R231, R267, R278, R281; derived) -/
def Obligations.CoreSteps : Prop :=
  (∀ (s : State) (d : DieId) (asid : BitVec 14) (va e p0 p1 p2 k : Nat) (cls : MemClass), ∀ at_ r0 r1 r2 base : Nat,
    at_ = (s.die d).asbase.toNat / 2 ^ 16 % 2 ^ 36 * 2 ^ 16 + 16 * asid.toNat → s.localHbm at_ = true → e = Memory.read s.mem at_ 8 → Memory.read s.mem (at_ + 8) 8 = 0 →
    e / 2 ^ 63 % 2 = 1 → e / 2 ^ 52 % 2 ^ 11 = 0 → e % 2 ^ 16 = 0 → r0 = e / 2 ^ 16 % 2 ^ 36 * 2 ^ 16 → s.localHbm r0 = true →
    p0 = Memory.read s.mem (r0 + 8 * (va / 2 ^ 42 % 2 ^ 13)) 8 → PointsTo s p0 r1 → p1 = Memory.read s.mem (r1 + 8 * (va / 2 ^ 29 % 2 ^ 13)) 8 → PointsTo s p1 r2 →
    p2 = Memory.read s.mem (r2 + 8 * (va / 2 ^ 16 % 2 ^ 13)) 8 → p2 / 2 ^ 62 % 4 = 3 → p2 / 2 ^ 52 % 8 = 0 → base = p2 / 2 ^ 16 % 2 ^ 36 * 2 ^ 16 → k = p2 / 2 ^ 59 % 8 →
    classCode k = some cls → s.classAt base = some cls → p2 / 2 ^ 56 % 4 ≠ 3 → (cls = .peer ∨ cls = .onchip → p2 / 2 ^ 56 % 4 = 2) →
    s.walk d asid va = .ok ⟨asid, va / 2 ^ 16 * 2 ^ 16, 2 ^ 16, base, cls, p2 / 2 ^ 58 % 2 == 1, BitVec.ofNat 2 (p2 / 2 ^ 56), p2 / 2 ^ 55 % 2 == 1⟩) ∧
  (∀ (s : State) (d : DieId) (asid : BitVec 14) (va : BitVec 55) (k : Kept), s.walk d asid va.toNat = .ok k → (s.die d).invBusy = false → ∃ t, exec (.pageWalk d asid va) s = .next t ∧
    k ∈ (t.die d).tlb ∧ (∀ j ∈ (s.die d).tlb, j ∈ (t.die d).tlb) ∧ (∀ w ∈ (t.die d).walks, w.asid = asid → w.va % 2 ^ 55 ≠ va.toNat) ∧ t.mem = s.mem ∧ t.pkg = s.pkg ∧
    (∀ e x, t.ctx e x = s.ctx e x) ∧ ∀ w ∈ (s.die d).walks, w.asid = asid → w.va % 2 ^ 55 = va.toNat →
      (∃ f, (s.core w.core).freeze = some f ∧ f.cause = .walk ∧ f.ctx = w.ctx) → ∃ e ∈ (t.core w.core).walked, e.ctx = w.ctx ∧ e.va = w.va ∧ e.kept = some k) ∧
  ∀ (s : State) (c : CoreId) (x : CtxId),
    (256 ≤ (s.ctx c x).runCount → ∃ t, exec (.ptsTick c x) s = .next t ∧ (t.ctx c x).pts = (s.ctx c x).pts + 1 ∧ (t.ctx c x).runCount = (s.ctx c x).runCount - 256 ∧
      t.mem = s.mem ∧ ∀ e y, (t.ctx e y).s = (s.ctx e y).s) ∧
    (s.coreEnabled c = true → (s.core c).halted = false ∨ (s.core c).awaitsRandom = true → (s.core c).rndCount < 16 → ∃ t, exec (.randomRefill c) s = .next t ∧
      (t.core c).rndCount = (s.core c).rndCount + 1 ∧ t.mem = s.mem ∧ ∀ e y, t.ctx e y = s.ctx e y) ∧
    (16 ≤ (s.core c).rndCount ∨ s.coreEnabled c = false ∨ (s.core c).halted = true ∧ (s.core c).awaitsRandom = false → exec (.randomRefill c) s = .next s) ∧
    (s.canFree c x = true → ∃ t, exec (.contextFree c x) s = .next t ∧ (t.ctx c x).st = .free ∧ ∀ e y, (t.ctx e y).s = (s.ctx e y).s) ∧
    ∀ mine : List MittenEntry, mine = ((s.core c).mittenDrain.filter fun m => m.ctx == x) → mine ≠ [] → ∃ t, exec (.guardCommitComplete c x) s = .next t ∧
      (∀ m ∈ (t.core c).mittenDrain, m.ctx ≠ x) ∧ (∀ e y, (t.ctx e y).s = (s.ctx e y).s) ∧
      (s.memOk → (∀ m ∈ mine, m.pa % 8 = 0 ∧ regionClass m.pa = some .hbm) → (mine.map (·.pa)).Nodup → (∀ l ∈ (s.die c.die).launches, l.freed < l.tasks) → t.memOk ∧
        (∀ m ∈ mine, ∀ i < 8, (Memory.get t.mem (m.pa + i)).toNat = if m.mask.getLsbD i then m.data.toNat / 256 ^ i % 256 else (Memory.get s.mem (m.pa + i)).toNat) ∧
        ∀ p, (∀ m ∈ mine, p < m.pa ∨ m.pa + 8 ≤ p) → Memory.get t.mem p = Memory.get s.mem p)

/-- ENQUEUE moves a ready part's tail and ends sigwait stalls, QUEUE_RESUME unparks; QUEUE_FETCH takes the launch that a good head entry names and moves the head on, and parks the queue for a bad one; AGING_INTERVAL raises the level of a queue whose candidate waits; PLACEMENT_DECISION puts the next group of the first candidate on a core that the rules admit and no waiting whole launch of its level names, with the table of the launch written again (log entry 68), the lowest group first (log entry 100), each task with its arguments, tolerance, seed and identity; BATCH_RELEASE makes the placed contexts Ready; NODE_START makes a ready node's launch a candidate; the context whose freeing leaves nothing of its launch writes the launch's end into its record: the guard counters, the tag, then state 2 with the count of kills and code 1, or 2 where a task was killed, and tend, and no other byte, and the launch is gone. A launch placed whole takes part as a whole (log entry 30), and the cores that waiting whole launches keep are the model's reading of R339 (log entry 33) (R15, R32, R331, R332, R333, R338, R339, R340, R341, R344; derived) -/
def Obligations.LaunchSteps : Prop :=
  (∀ (s : State) (d : DieId) (q : Fin 64) (n : BitVec 32),
    (s.pkg.ready = true → exec (.enqueue d q n) s = .next ((s.mapQueue d q fun y => { y with tail := n }).wakeHarts d) ∧
      exec (.queueResume d q) s = .next (s.mapQueue d q fun y => { y with park := false })) ∧
    (s.pkg.ready = false → exec (.enqueue d q n) s = .next s ∧ exec (.queueResume d q) s = .next s) ∧
    (((s.die d).queue q).age ≠ 0 → (s.die d).candidate q ≠ none → exec (.agingInterval d q) s = .next (s.mapQueue d q fun y => { y with boost := min 7 (y.boost + 1) })) ∧
    (((s.die d).queue q).en = true → ((s.die d).queue q).park = false → ((s.die d).queue q).head ≠ ((s.die d).queue q).tail →
      (∀ r pa, s.headEntry ((s.die d).queue q) = .error (r, pa) → exec (.queueFetch d q) s = .next (s.park d q r pa)) ∧
      ∀ (y : LQueue) (e w0 pa : Nat) (tag : Word), y = (s.die d).queue q → (y.tail - y.head).toNat ≤ 2 ^ y.lg → e = y.base.toNat + 16 * (y.head.toNat % 2 ^ y.lg) →
        s.localHbm e = true → s.localHbm (e + 15) = true → (∀ u ∈ s.poison, overlaps u 8 e 16 = false) → w0 = Memory.read s.mem e 8 → 2 ^ 63 ≤ w0 →
        w0 / 2 ^ 52 % 2 ^ 11 = 0 → pa = w0 % 2 ^ 52 → pa % 256 = 0 → s.localHbm pa = true → s.localHbm (pa + 255) = true → (∀ u ∈ s.poison, overlaps u 8 pa 256 = false) →
        tag = BitVec.ofNat 64 (Memory.read s.mem (e + 8) 8) → ∃ t, exec (.queueFetch d q) s = .next t ∧ t.mem = s.mem ∧
        ((t.die d).queue q).head = ((s.die d).queue q).head + 1 ∧ (t.die d).launches = (s.die d).launches ++ [s.readRecord (s.die d).nextId q none pa tag none])) ∧
  (∀ (s : State) (d : DieId) (q : Fin 64) (pick : Nat) (l : Launch) (i : Image) (c : CoreId) (rest : List (Fin 64 × Cand)), (s.die d).batch = [] →
    (s.die d).ranked = (q, .launch l) :: rest → l.checked = true → l.whole = false → l.exactTasks = [] → l.nextGroup < l.groups → s.readImage l.image = some i →
    recordFieldsOk (fun j => s.word (l.recPa + 8 * j)) = true → (∃ z ∈ (s.die d).placed, z.id = l.id) →
    choose pick ((s.namedCores d l.cores).filter fun c => !(s.equalHeld d q rest).contains c && s.fits c (l.need l.nextGroup) 0) = some c →
    ∀ u, u = s.setUpAgain d l i → exec (.placementDecision d pick) s = .next (((u.mapLaunch d l.id fun _ => l.placedGroup l.nextGroup).placeGroup l i false c (u.core c).vacant l.nextGroup
      (l.tasksOf l.nextGroup)).mapDie d fun y => { y with lastQueue := q, queues := y.queues.set q.val { y.queues[q] with boost := 0 } q.isLt })) ∧
  (∀ (s : State) (l : Launch) (i : Image) (c : CoreId) (x : CtxId) (group task : Nat), ∃ y, (s.placeGroup l i false c [x] group [task]).ctx c x = y ∧ y.st = .placed ∧
    (∀ j : Fin 8, ∀ r : SReg, r.val = j.val + 1 → y.s[r] = l.args[j]) ∧ y.tol = (if l.guard then l.tol else 0) ∧ y.rseed = l.seed ^^^ BitVec.ofNat 64 task ∧
    y.task = BitVec.ofNat 24 task ∧ y.launch = some l.id ∧ y.fmtn = 0x05 ∧ y.lease = 0x40 ∧ y.grd = l.guard ∧ y.accMask = l.accMask) ∧
  (∀ (s : State) (d : DieId), ∃ t, exec (.batchRelease d) s = .next t ∧ (t.die d).batch = [] ∧ (∀ c x, (c, x) ∈ (s.die d).batch → (s.ctx c x).st = .placed →
    (t.ctx c x).st = .ready ∧ (t.ctx c x).s = (s.ctx c x).s) ∧ ∀ c x, (c, x) ∉ (s.die d).batch → t.ctx c x = s.ctx c x) ∧
  (∀ (s : State) (d : DieId) (gr n : Nat) (g : Graph) (y : GNode), (s.die d).graphs.find? (fun g => g.id == gr) = some g → g.node n = some y → s.nodeReady g n y = true →
    s.readFault (y.w[1].toNat % 2 ^ 52) 256 = none → ∃ t, exec (.nodeStart d gr n) s = .next t ∧ t.mem = s.mem ∧ t.cores = s.cores ∧
      (t.die d).launches = (s.die d).launches ++ [s.readRecord (s.die d).nextId g.queue (some (gr, n)) (y.w[1].toNat % 2 ^ 52) 0 (y.rotation (g.stepOf n))]) ∧
  ∀ (s : State) (c : CoreId) (x : CtxId) (l : Launch), s.canFree c x = true → s.launchOf c x = some l → l.guard = false → (s.ctx c x).group < l.groups → l.checked = true →
    l.groups ≤ l.nextGroup → l.tasks ≤ l.freed + 1 → l.exactTasks = [] → l.exactSent = l.exactFreed → l.commits = 0 → l.node = none → s.memOk →
    ∃ t, exec (.contextFree c x) s = .next t ∧ t.memOk ∧ (∀ z ∈ (t.die c.die).launches, z.id ≠ l.id) ∧
      Memory.read t.mem (l.recPa + 160) 8 = 2 ^ 63 + l.killed % 2 ^ 24 * 2 ^ 16 + (if l.killed = 0 then 1 else 2) ∧
      Memory.read t.mem (l.recPa + 184) 8 = l.gPass.toNat + l.gFail.toNat * 2 ^ 32 ∧ Memory.read t.mem (l.recPa + 192) 8 = l.gOvfl.toNat + l.gFault.toNat * 2 ^ 32 ∧
      Memory.read t.mem (l.recPa + 200) 8 = l.tag.toNat ∧
      ∀ p, p < l.recPa + 160 ∨ l.recPa + 168 ≤ p ∧ p < l.recPa + 176 ∨ l.recPa + 208 ≤ p → Memory.get t.mem p = Memory.get s.mem p

/-- On a ready part: INVALIDATION of an idle die starts one of the range as it then stands, a busy one only takes its fields (log entry 13), and its completion drops the covered kept translations and no others; ACTIVATE installs the checked group or reports its status; DEACTIVATE starts the removal of a group, which ends when no operation committed before names it; PEAK_RESET clears the peak of an enabled field; a write of each listed register reads back as its implemented bits, and before the part is ready REGISTER_WRITE changes none but the mailbox's (log entry 51) (R4, R273, R274, R275, R282, R294, R295, R325, R355, R414; derived) -/
def Obligations.TableControl : Prop :=
  (∀ (s : State) (d : DieId) (all glob : Bool) (asid : BitVec 14), s.pkg.ready = true → (s.die d).invBusy = false →
    exec (.invalidation d all glob asid) s = .next (s.mapDie d fun y =>
      { y with invBusy := true, invAll := all, invG := glob, invAsid := asid, invRun := ⟨y.invva, y.invlen, all, glob, asid⟩, walks := y.walks.map fun w => { w with old := true } })) ∧
  (∀ (s : State) (d : DieId) (all glob : Bool) (asid : BitVec 14), s.pkg.ready = true → (s.die d).invBusy = true →
    exec (.invalidation d all glob asid) s = .next (s.mapDie d fun y => { y with invAll := all, invG := glob, invAsid := asid })) ∧
  (∀ (s : State) (d : DieId), (s.die d).invBusy = true → s.invQuiet d = true → ∃ t, exec (.invalidationComplete d) s = .next t ∧ (t.die d).invBusy = false ∧ t.mem = s.mem ∧
    (∀ k, k ∈ (t.die d).tlb ↔ k ∈ (s.die d).tlb ∧ (s.die d).invRun.covers k = false) ∧ ∀ c x, t.ctx c x = s.ctx c x) ∧
  (∀ (s : State) (d : DieId) (i : BitVec 10), s.pkg.ready = true → (s.die d).grpBusy = false →
    (∀ g, s.readGroup d i = .ok g → ∃ t, exec (.activate d i) s = .next t ∧ (t.die d).grpStatus = 0 ∧ (t.die d).grpIndex = i ∧
      (t.die d).groups = g :: (s.die d).groups.filter fun h => h.idx != i.toNat) ∧
    (∀ e, s.readGroup d i = .error e → exec (.activate d i) s = .next (s.mapDie d fun y => { y with grpIndex := i, grpStatus := BitVec.ofNat 4 e })) ∧
    exec (.deactivate d i) s = .next (s.mapDie d fun y => { y with grpIndex := i, grpBusy := true, grpRun := some ⟨i, s.pkg.nextColl, s.groupCommands d i.toNat⟩ })) ∧
  (∀ (s : State) (d : DieId) (i : BitVec 10), s.pkg.ready = true → (s.die d).grpBusy = true → ∀ e ∈ [Instr.activate d i, .deactivate d i],
    exec e s = .next (s.mapDie d fun y => { y with grpStatus := 3 })) ∧
  (∀ (s : State) (d : DieId), (s.die d).grpBusy = true → ∀ r, (s.die d).grpRun = some r → (∀ o ∈ s.pkg.colls, o.core.die = d → o.group = r.index.toNat → r.colls ≤ o.id) →
    (∀ q ∈ s.groupCommands d r.index.toNat, q ∉ r.cmds) → exec (.deactivateComplete d) s = .next (s.mapDie d fun y =>
    { y with grpBusy := false, grpRun := none, grpStatus := 0, groups := y.groups.filter fun g => g.idx != r.index.toNat })) ∧
  (∀ (s : State) (d : DieId) (f : Fin 4), s.pkg.ready = true → s.fieldEnabled d.val f.val = true → exec (.peakReset d f) s =
    .next (s.mapDie d fun y => y.mapField f fun m => { m with peak := 0 })) ∧
  (∀ (s : State) (d : DieId) (v : Word), s.pkg.ready = true → ∀ r ∈ [(0x000, v.toNat / 2 ^ 16 % 2 ^ 36 * 2 ^ 16), (0x008, v.toNat / 2 ^ 6 % 2 ^ 46 * 2 ^ 6), (0x010, v.toNat),
      (0x018, v.toNat), (0x2000, v.toNat % 2 ^ 5), (0x2008, v.toNat % 2 ^ 32), (0x2010, v.toNat % 2 ^ 52), (0x2020, v.toNat % 2 ^ 16), (0xC08, v.toNat), (0xC28, v.toNat % 2 ^ 52)],
    ∃ t, exec (.registerWrite d (BitVec.ofNat 24 r.1) v) s = .next t ∧ (t.readReg d r.1).toNat = r.2 ∧ t.mem = s.mem ∧ t.cores = s.cores ∧ t.traps = s.traps) ∧
  ∀ (s : State) (d : DieId) (off : BitVec 24) (v : Word), s.pkg.ready = false → off.toNat / 8 < 0xC00 / 8 ∨ 0xC30 / 8 ≤ off.toNat / 8 → exec (.registerWrite d off v) s = .next s

/-- A reset frees every context, empties every trap queue and starts bring-up at step 1, or at step 2 from the mailbox, with fuses and memory kept (log entry 14); POWER_GOOD that nothing fails makes the part ready at step 7, with the second tier of its straps and memory zero but for the bytes of a CXL device (log entry 1), and one that fails stops at its step with code and unit; nothing fails exactly when the run names no failure that its step can give, each image that bring-up loads is accepted (log entry 89), the straps are ones of R396 and a strapped tier is there; the visor's words, numbered in the order of R328 (log entry 22), grow by one and saturate; a flush copies them, and power-down keeps what was flushed; link events set their registers, and current windows the average, the peak and the step of their field; a patrol-scrub error that cannot be corrected poisons its unit (log entry 53) and, in the registers of an enabled core, kills the context (R326, R328, R329, R378, R379, R400, R401, R402, R404, R407; derived) -/
def Obligations.PowerAndLinks : Prop :=
  (∀ s : State, ∃ t, exec .resetPin s = .next t ∧ t.pkg.step = 1 ∧ t.pkg.ready = false ∧ t.mem = s.mem ∧ (∀ c x, (t.ctx c x).st = .free) ∧ (∀ cl, (t.trapQ cl).records = []) ∧
    t.pkg.hbm = s.pkg.hbm ∧ t.pkg.fld = s.pkg.fld ∧ t.pkg.opt = s.pkg.opt ∧ ∀ d, (t.die d).capcore = (s.die d).capcore) ∧
  (∀ s : State, s.pkg.mbBusy = false → ∃ t, exec .reset s = .next t ∧ t.pkg.step = 2 ∧ t.pkg.ready = false ∧ t.mem = s.mem ∧ ∀ c x, (t.ctx c x).st = .free) ∧
  (∀ (s : State) (b : BootRun), s.pkg.ready = false → s.pkg.code = 0 → ∃ t, exec (.powerGood b) s = .next t ∧
    (s.bootFails b = none → t.pkg.ready = true ∧ t.pkg.step = 7 ∧ t.pkg.fabid = b.pkg ∧ t.pkg.tkind.toNat = (if b.m0 then 2 else if b.m1 then 3 else if b.lpddr then 1 else 0) ∧
      t.pkg.tier.toNat = (if b.m0 || b.m1 || b.lpddr then b.tier.val else 0) ∧
      t.mem = (if b.m0 || b.m1 then s.mem.filter fun e => decide (tierBase ≤ e.1) && decide (e.1 < 2 ^ 43) else []) ∧ ∀ c x, (t.ctx c x).st = .free) ∧
    ∀ k code u, s.bootFails b = some (k, code, u) → t.pkg.ready = false ∧ t.pkg.step = BitVec.ofNat 4 k ∧ t.pkg.code = BitVec.ofNat 8 code ∧ t.pkg.unit = BitVec.ofNat 16 u ∧
      t.mem = s.mem ∧ t.cores = s.cores) ∧
  (∀ (s : State) (b : BootRun), (s.bootFails b = none ↔ (∀ k c u, b.fail = some (k, c, u) → ¬(s.pkg.step.toNat ≤ k.val ∧ c.toNat ∈ stepCodes k.val ∧ s.unitOk b k.val u.toNat = true)) ∧
      (s.pkg.step.toNat ≤ 1 → Boots s 1) ∧ (s.pkg.step.toNat ≤ 6 → Boots s 2 ∧ Boots s 3) ∧ ¬(b.m0 = true ∧ b.m1 = true) ∧ ¬((b.m0 = true ∨ b.m1 = true) ∧ b.lpddr = true) ∧
      (b.m0 = true ∨ b.m1 = true ∨ b.lpddr = true → b.tier ≠ 0)) ∧
    (s.pkg.step = 2 → b.fail = none → (b.m0 = true ∧ b.m1 = true ∨ (b.m0 = true ∨ b.m1 = true) ∧ b.lpddr = true → s.bootFails b = some (2, 3, 0)) ∧
      (¬(b.m0 = true ∧ b.m1 = true) → ¬((b.m0 = true ∨ b.m1 = true) ∧ b.lpddr = true) → (b.m0 = true ∨ b.m1 = true ∨ b.lpddr = true) → b.tier = 0 →
        s.bootFails b = some (4, 5, 8)))) ∧
  (∀ (s : State) (i j n : Nat) (hi : i < 815) (hj : j < 815), ((s.visorAdd i n).pkg.visor[j]).toNat =
    if i = j then min (2 ^ 64 - 1) (s.pkg.visor[i].toNat + n) else s.pkg.visor[j].toNat) ∧
  (∀ s : State, exec .visorFlush s = .next { s with pkg := { s.pkg with visorNv := s.pkg.visor } } ∧
    (∃ t, exec .powerDown s = .next t ∧ t.pkg.visorNv = s.pkg.visor ∧ t.pkg.ready = false ∧ t.pkg.step = 1) ∧
    ∃ t, exec .powerLoss s = .next t ∧ t.pkg.visorNv = s.pkg.visorNv ∧ t.pkg.ready = false ∧ t.pkg.step = 1) ∧
  (∀ (s : State) (p : Fin 64) (h : Fin 2) (up : Bool) (w g : Fin 4),
    exec (.linkRetrain (.optical p)) s = .next (s.visorAdd (742 + p.val) 1) ∧ exec (.linkRetrain .bridge) s = .next (s.visorAdd 806 1) ∧
    exec (.linkRetrain (.host h)) s = .next (s.visorAdd (807 + h.val) 1) ∧
    (∃ t, exec (.opticalLinkChange p up) s = .next t ∧ t.mem = s.mem ∧ t.cores = s.cores ∧ ∀ i < 64, t.pkg.ports.getLsbD i =
      if i = p.val then up && s.pkg.opt.getLsbD i else s.pkg.ports.getLsbD i) ∧
    (∃ t, exec (.hostLinkChange h w g) s = .next t ∧ t.mem = s.mem ∧ (if h = 0 then t.pkg.w0.toNat = w.val ∧ t.pkg.g0.toNat = g.val ∧ t.pkg.w1 = s.pkg.w1 ∧ t.pkg.g1 = s.pkg.g1
      else t.pkg.w1.toNat = w.val ∧ t.pkg.g1.toNat = g.val ∧ t.pkg.w0 = s.pkg.w0 ∧ t.pkg.g0 = s.pkg.g0)) ∧
    (s.pkg.isHost h = false → exec (.hotReset h) s = exec (.hostLinkChange h 0 0) s) ∧ (s.pkg.isHost h = true → exec (.hotReset h) s = .next s)) ∧
  (∀ (s : State) (d : DieId) (f : Fin 4) (avg : BitVec 16) (mv : Nat) (m : FieldMeter), s.fieldEnabled d.val f.val = true → m = (s.die d).fields[f] →
    (s.pkg.ready = true → ∃ t, exec (.currentWindow d f avg) s = .next t ∧ t.mem = s.mem ∧ ∀ n, n = (t.die d).fields[f] → n.avg = avg ∧ n.peak.toNat = max m.peak.toNat avg.toNat ∧ n.lim = m.lim ∧ n.decl = m.decl ∧
      n.above = (if max 0x100 m.lim.toNat < avg.toNat then m.above + 1 else 0) ∧ n.below = (if 8 * avg.toNat ≤ 7 * max 0x100 m.lim.toNat then m.below + 1 else 0) ∧
      n.step = (if 2 ≤ n.above ∧ m.step.toNat < 4 then m.step + 1 else if m.step.toNat < min 4 m.ceil.toNat then m.step + 1
        else if 8 ≤ n.below ∧ min 4 m.ceil.toNat < m.step.toNat then m.step - 1 else m.step)) ∧
    exec (.supplyDroop d f mv) s = .next ((s.visorAdd (512 + 4 * d.val + f.val) 1).visorAdd (520 + 16 * (4 * d.val + f.val) + min 15 (mv / 5)) 1)) ∧
  (∀ (s : State) (ft hs : List Nat), ∃ t, exec (.visorSample ft hs) s = .next t ∧ t.mem = s.mem ∧ t.cores = s.cores ∧ t.die0 = s.die0 ∧ t.die1 = s.die1 ∧
    t.pkg.visor[813].toNat = min (2 ^ 64 - 1) (s.pkg.visor[813].toNat + 1)) ∧
  ∀ (s : State) (pa : BitVec 52) (c : CoreId) (x : CtxId),
    (regionClass pa.toNat = some .tier → s.assigned pa.toNat = true → exec (.patrolScrub (.mem pa) false) s = .next (s.visorAdd 662 1) ∧
      ∃ t, exec (.patrolScrub (.mem pa) true) s = .next t ∧ t.mem = s.mem ∧ t.cores = s.cores ∧ pa.toNat / 8 * 8 ∈ t.poison ∧ ∀ u ∈ s.poison, u ∈ t.poison) ∧
    exec (.patrolScrub (.reg c x) false) s = .next s ∧
    (s.coreEnabled c = false → exec (.patrolScrub (.reg c x) true) s = .next s) ∧
    (s.coreEnabled c = true → (s.ctx c x).st ∉ [CtxState.free, .retired, .saved] → ∃ t, exec (.patrolScrub (.reg c x) true) s = .next t ∧ (t.ctx c x).st = .retired)

/-- A busy mailbox takes the command's code into MBCMD.cmd and nothing else; on an idle one each command has its effect and ends with its status: VISOR writes the visor's words into the buffer, ATTEST the report over the arguments, STAGE stages an accepted image and sets hpend, COMMIT takes a staged image over, or waits for the handler's commit point, where every record that the old handler is to serve is over (log entry 90), ROUTINE stores an accepted routine, with its entry offset, on the named dies, or ends with FORMAT, IN_USE or NO_ROOM and stores none, KEYLOAD and KEYCLEAR change one slot (the length of a wrapped key and of the public key: log entry 10), KEYEXCH writes the public key; a command without a buffer (log entry 52), or with an unassigned code, ends with FORMAT; an image that is not accepted ends with its code (R329, R411, R412, R413, R414, R415, R416; derived) -/
def Obligations.MailboxCommands : Prop :=
  (∀ (s : State) (a : Nat), s.pkg.mbBusy = false → s.mailBuffer = some a →
    (∃ t, exec .visor s = .next t ∧ t.pkg.mbStatus = 0 ∧ t.pkg.mbCmd = 1 ∧ t.mem = (s.otherWrite a s.pkg.visorBytes).mem) ∧
    (∃ t, exec .attest s = .next t ∧ t.pkg.mbStatus = 0 ∧ t.pkg.mbCmd = 2 ∧ t.mem = (s.otherWrite a (s.report s.pkg.nonceArg)).mem) ∧
    (∃ t, exec .keyexch s = .next t ∧ t.pkg.mbStatus = 0 ∧ t.mem = (s.otherWrite a (leBytes 1184 Config.mlKemPublic.toNat)).mem) ∧
    (∃ t, exec .stage s = .next t ∧ t.mem = s.mem ∧ t.pkg.mbBusy = false ∧
      (∀ i, s.bufferImage a [1, 2, 3] = .ok i → t.pkg.mbStatus = 0 ∧ t.pkg.hpend = true ∧ t.pkg.fw.staged = some i.covered) ∧
      ∀ e < 256, s.bufferImage a [1, 2, 3] = .error e → t.pkg.mbStatus.toNat = e ∧ t.pkg.hpend = s.pkg.hpend ∧ t.pkg.fw = s.pkg.fw) ∧
    (∃ t, exec .routine s = .next t ∧ t.mem = s.mem ∧ t.pkg.mbBusy = false ∧
      (∀ e < 256, s.bufferImage a [4] = .error e → t.pkg.mbStatus.toNat = e ∧ ∀ d, (t.die d).routines = (s.die d).routines) ∧
      ∀ i, s.bufferImage a [4] = .ok i →
        (32768 < i.body.length → t.pkg.mbStatus = 4 ∧ ∀ d, (t.die d).routines = (s.die d).routines) ∧
        (i.body.length ≤ 32768 → (∃ d ∈ s.pkg.namedDies, s.routineInUse d i.index = true) → t.pkg.mbStatus = 3 ∧ ∀ d, (t.die d).routines = (s.die d).routines) ∧
        (i.body.length ≤ 32768 → (∀ d ∈ s.pkg.namedDies, s.routineInUse d i.index = false) →
          ((∃ d ∈ s.pkg.namedDies, 131072 < (((s.die d).routines.filter fun r => r.index != i.index).map fun r => r.body.length).sum + i.body.length) →
            t.pkg.mbStatus = 5 ∧ ∀ d, (t.die d).routines = (s.die d).routines) ∧
          ((∀ d ∈ s.pkg.namedDies, (((s.die d).routines.filter fun r => r.index != i.index).map fun r => r.body.length).sum + i.body.length ≤ 131072) →
            t.pkg.mbStatus = 0 ∧ ∀ d, (t.die d).routines =
              if d ∈ s.pkg.namedDies then ((s.die d).routines.filter fun r => r.index != i.index) ++ [⟨i.index, i.entry, i.body⟩] else (s.die d).routines))) ∧
    (∃ t, exec .keyload s = .next t ∧ t.mem = s.mem ∧ t.pkg.mbBusy = false ∧
      (4096 ≤ s.pkg.mbArg[0].toNat ∨ Config.keyUnwraps (Memory.bytes s.mem a wrappedBytes) = false → t.pkg.mbStatus = 4 ∧ t.pkg.keys = s.pkg.keys) ∧
      (s.pkg.mbArg[0].toNat < 4096 → Config.keyUnwraps (Memory.bytes s.mem a wrappedBytes) = true → t.pkg.mbStatus = 0 ∧
        t.pkg.keys.lookup s.pkg.mbArg[0].toNat = some (Config.keyUnwrapped (Memory.bytes s.mem a wrappedBytes))))) ∧
  (∀ s : State, s.pkg.mbBusy = true → ∀ p ∈ [(Instr.visor, 1), (.attest, 2), (.stage, 3), (.commit, 4), (.routine, 5), (.keyload, 6), (.keyclear, 7), (.keyexch, 8), (.reset, 9)],
    exec p.1 s = .next { s with pkg := { s.pkg with mbCmd := p.2 } }) ∧
  (∀ s : State, s.pkg.mbBusy = false → s.mailBuffer = none → ∀ i ∈ [Instr.visor, .attest, .stage, .routine, .keyload, .keyexch], ∃ t, exec i s = .next t ∧
    t.pkg.mbStatus = 4 ∧ t.mem = s.mem ∧ t.pkg.fw = s.pkg.fw ∧ t.pkg.keys = s.pkg.keys) ∧
  (∀ s : State, s.pkg.mbBusy = false → s.pkg.mbArg[0].toNat < 4096 → s.slotNamed s.pkg.mbArg[0].toNat = false → ∃ t, exec .keyclear s = .next t ∧ t.pkg.mbStatus = 0 ∧
    t.mem = s.mem ∧ t.pkg.keys.lookup s.pkg.mbArg[0].toNat = none ∧ ∀ k, k ≠ s.pkg.mbArg[0].toNat → t.pkg.keys.lookup k = s.pkg.keys.lookup k) ∧
  (∀ s : State, s.pkg.mbBusy = false → (s.pkg.fw.staged = none → ∃ t, exec .commit s = .next t ∧ t.pkg.mbStatus = 6 ∧ t.pkg.fw = s.pkg.fw) ∧
    ∀ b, s.pkg.fw.staged = some b →
      (sliceNat b 4 1 = 3 → ∃ t, exec .commit s = .next t ∧ t.pkg.mbBusy = true ∧ t.pkg.fw.waitHandler = true ∧ t.pkg.fw.staged = some b) ∧
      (∀ k : Fin 4, sliceNat b 4 1 = k.val + 1 → k.val ≠ 2 → ∃ t, exec .commit s = .next t ∧ t.pkg.mbStatus = 0 ∧ t.pkg.hpend = false ∧ t.pkg.fw.staged = none ∧
        t.pkg.fw.runVer[k] = BitVec.ofNat 16 (sliceNat b 6 2) ∧ t.mem = s.mem)) ∧
  (∀ (s : State) (b : List Byte), s.pkg.fw.staged = some b → s.pkg.fw.waitHandler = true →
    ((∃ cl, (s.trapQ cl).records.length ≠ (s.trapQ cl).late) ∨ (∃ c, s.served c ≠ none) → exec .handlerCommitPoint s = .next s) ∧
    ((∀ cl, (s.trapQ cl).records.length = (s.trapQ cl).late) → (∀ c, s.served c = none) → ∃ t, exec .handlerCommitPoint s = .next t ∧
    (∀ cl, (t.trapQ cl).records = (s.trapQ cl).records ∧ (t.trapQ cl).late = 0) ∧ t.pkg.mbBusy = false ∧ t.pkg.mbStatus = 0 ∧ t.pkg.hpend = false ∧ t.pkg.fw.staged = none ∧ t.mem = s.mem)) ∧
  (∀ (s : State) (cmd : BitVec 8), s.pkg.mbBusy = false → cmd = 0 ∨ 10 ≤ cmd.toNat → ∃ t, exec (.mailboxOther cmd) s = .next t ∧ t.pkg.mbStatus = 4 ∧ t.pkg.mbCmd = cmd ∧ t.mem = s.mem) ∧
  ∀ (s : State) (n : BitVec 256), exec (.spdmMeasurement n) s = .next { s with out := s.out ++ [.report (s.report n.toNat)] }

/-- An inbound write within BAR2 stores its bytes and no others, one outside it is unsupported and changes no memory; a read of unpoisoned bytes answers them; an AtomicOp on an aligned operand in HBM or the second tier stores the new value and answers the old one (R397, R398, R193; derived) -/
def Obligations.InboundTraffic : Prop :=
  ∀ (s : State) (p : Fin 2) (off : Nat) (b : List Byte), b ≠ [] →
    (s.bar2 p off b.length = false → exec (.inboundWrite p off b false) s = .next { s with out := s.out ++ [.unsupported] }) ∧
    (s.bar2 p off b.length = true → s.memOk → ∃ t, exec (.inboundWrite p off b false) s = .next t ∧ t.memOk ∧ t.out = s.out ∧
      (∀ i < b.length, Memory.get t.mem (off + i) = b.getD i 0) ∧ (∀ q, q < off ∨ off + b.length ≤ q → Memory.get t.mem q = Memory.get s.mem q) ∧
      ∀ c x, (t.ctx c x).s = (s.ctx c x).s ∧ (t.ctx c x).v = (s.ctx c x).v) ∧
    (∀ n, off < 2 ^ 43 → s.poison = [] → s.bar2 p off n = true → exec (.inboundRead p off n) s = .next { s with out := s.out ++ [.completion (leBytes n (s.memRead off n))] }) ∧
    (∀ n, off < 2 ^ 43 → s.bar2 p off n = false → exec (.inboundRead p off n) s = .next { s with out := s.out ++ [.unsupported] }) ∧
    ∀ (op : HostAtomic) (wide : Bool) (x y : Word) (n m : Nat), n = (if wide then 8 else 4) → m = s.memRead off n → s.bar2 p off n = true → off % n = 0 → s.isLined off = true →
      s.poison = [] → s.memOk → ∃ t, exec (.inboundAtomicop p op wide off x y) s = .next t ∧ t.memOk ∧ t.out = s.out ++ [.completion (leBytes n m)] ∧
      (∀ i < n, (Memory.get t.mem (off + i)).toNat = (match op with
        | .fetchAdd => m + x.toNat
        | .swap => x.toNat
        | .cas => if m = y.toNat % 256 ^ n then x.toNat else m) / 256 ^ i % 256) ∧
      ∀ q, q < off ∨ off + n ≤ q → Memory.get t.mem q = Memory.get s.mem q

/-- On a core that is not frozen, XFT_TRANSFORM_DONE puts the outputs of the next transform of the batch at their places: the result of the self-sorting sequence of R169 with the butterflies and twiddles of R170 to R173, each rounded as they say, on the input elements as they stand, where no write is unordered with the start, no unit is poisoned and no two output components overlap; it changes no other byte of memory. XFT_COMPLETE first does the transforms still to do; when none is, no input has been written by another path meanwhile and no output overlaps, it changes no byte but those of the barrier it arrives at; it never changes a byte outside the outputs and that barrier (how near the constants and twiddles lie to the functions they name is the model's reading: log entry 11) (R169, R170, R171, R172, R173, R174, R175, R176, R178; derived) -/
def Obligations.TransformResults : Prop :=
  (∀ (s : State) (c : CoreId) (x : XftOp) (p : Vector Word 16) (base z : Nat), (s.core c).xft = some x → (s.core c).halted = false → p = (s.core c).eng1.active →
    base = 0x10000000000 + c.val * 0x200000 → z = planZ p → s.memOk → x.done < planB p →
    ∃ t, exec (.xftTransformDone c) s = .next t ∧ t.memOk ∧ (∀ a, OutsideOutputs c p x.done a → Memory.get t.mem a = Memory.get s.mem a) ∧
      (x.behind = [] → s.poison = [] → OutputsApart p x.done → ∃ y : Nat → Cx,
        Transforms (planFp p) ((setWord p 0).testBit 1) (planRadices p) (fun k => (Memory.read s.mem (base + (planIn p).at x.done k) z,
          Memory.read s.mem (base + ((planIn p).at x.done k + (planIn p).im)) z)) y ∧
        ∀ k < planN p, Memory.read t.mem (base + (planOut p).at x.done k) z = (y k).1 % 2 ^ (8 * z) ∧
          Memory.read t.mem (base + ((planOut p).at x.done k + (planOut p).im)) z = (y k).2 % 2 ^ (8 * z))) ∧
  ∀ (s : State) (c : CoreId) (x : XftOp) (p : Vector Word 16) (bar : Nat), (s.core c).xft = some x → (s.core c).halted = false → p = (s.core c).eng1.active → s.memOk →
    bar = s.spadHome c (s.ctx c x.ctx).launch + (setWord p 8) % 2 ^ 21 →
    (x.done < planB p → ∃ t, exec (.xftTransformDone c) s = .next t ∧ exec (.xftComplete c) s = exec (.xftComplete c) t) ∧
    ∃ t, exec (.xftComplete c) s = .next t ∧ t.memOk ∧
      (∀ a, (∀ b < planB p, OutsideOutputs c p b a) → ((setWord p 8).testBit 63 = true → a < bar ∨ bar + 16 ≤ a) → Memory.get t.mem a = Memory.get s.mem a) ∧
      (planB p ≤ x.done → x.dirty = [] → planOverlaps p = false →
        ∀ a, ((setWord p 8).testBit 63 = true → a < bar ∨ bar + 16 ≤ a) → Memory.get t.mem a = Memory.get s.mem a)
end

