-- ==== Sys2Proof/Laws/Codec.lean ====
section
/-!
SUPPORT. Sys2Proof/Laws/Codec.lean: the encoder's fields read back: forms from their words, operands from their codes, and the size of a word.
-/
namespace Sys2Proof

/-! ### Words of the three forms -/

theorem RWord.toNat_lt (r : RWord) : r.toNat < 2 ^ 32 := by
  obtain ⟨op, p, n, d, a, b, l⟩ := r
  have := op.isLt; have := p.isLt; have := d.isLt; have := a.isLt; have := b.isLt
  cases n <;> cases l <;> simp only [RWord.toNat, Bool.toNat_true, Bool.toNat_false] <;> omega
theorem MWord.toNat_lt (r : MWord) : r.toNat < 2 ^ 32 := by
  obtain ⟨op, p, n, acc, a, b, l, flags⟩ := r
  have := op.isLt; have := p.isLt; have := acc.isLt; have := a.isLt; have := b.isLt; have := flags.isLt
  cases n <;> cases l <;> simp only [MWord.toNat, Bool.toNat_true, Bool.toNat_false] <;> omega
theorem FWord.toNat_lt (r : FWord) : r.toNat < 2 ^ 32 := by
  obtain ⟨f7, rs2, rs1, f3, rd, opc⟩ := r
  have := f7.isLt; have := rs2.isLt; have := rs1.isLt; have := f3.isLt; have := rd.isLt; have := opc.isLt
  simp only [FWord.toNat]; omega
theorem field_eq {w k m : Nat} {h : 0 < m} (x : Fin m) (e : w / k % m = x.val) : field w k m h = x := Fin.ext e
theorem flag_eq {w k : Nat} (x : Bool) (e : w / k % 2 = x.toNat) : flag w k = x := by cases x <;> simp [flag, e]
@[simp] theorem RWord.ofNat_toNat (r : RWord) : RWord.ofNat r.toNat = r := by
  obtain ⟨op, p, n, d, a, b, l⟩ := r
  have := op.isLt; have := p.isLt; have := d.isLt; have := a.isLt; have := b.isLt
  have := Bool.toNat_lt n; have := Bool.toNat_lt l
  simp only [RWord.ofNat, RWord.toNat, RWord.mk.injEq]
  refine ⟨field_eq _ ?_, field_eq _ ?_, flag_eq _ ?_, field_eq _ ?_, field_eq _ ?_, field_eq _ ?_, flag_eq _ ?_⟩ <;> omega
@[simp] theorem MWord.ofNat_toNat (r : MWord) : MWord.ofNat r.toNat = r := by
  obtain ⟨op, p, n, acc, a, b, l, flags⟩ := r
  have := op.isLt; have := p.isLt; have := acc.isLt; have := a.isLt; have := b.isLt; have := flags.isLt
  have := Bool.toNat_lt n; have := Bool.toNat_lt l
  simp only [MWord.ofNat, MWord.toNat, MWord.mk.injEq]
  refine ⟨field_eq _ ?_, field_eq _ ?_, flag_eq _ ?_, field_eq _ ?_, field_eq _ ?_, field_eq _ ?_, flag_eq _ ?_, field_eq _ ?_⟩ <;> omega
@[simp] theorem FWord.ofNat_toNat (r : FWord) : FWord.ofNat r.toNat = r := by
  obtain ⟨f7, rs2, rs1, f3, rd, opc⟩ := r
  have := f7.isLt; have := rs2.isLt; have := rs1.isLt; have := f3.isLt; have := rd.isLt; have := opc.isLt
  simp only [FWord.ofNat, FWord.toNat, FWord.mk.injEq]
  refine ⟨field_eq _ ?_, field_eq _ ?_, field_eq _ ?_, field_eq _ ?_, field_eq _ ?_, field_eq _ ?_⟩ <;> omega
theorem rform_lt (op : Fin 128) (g : Guard) (d a b : Fin 64) (l : Bool) : rform op g d a b l < 2 ^ 32 := RWord.toNat_lt _
theorem mform_lt (op : Fin 128) (g : Guard) (acc : Fin 8) (a b : Fin 64) (l : Bool) (f : Fin 8) : mform op g acc a b l f < 2 ^ 32 := MWord.toNat_lt _
@[simp] theorem ofNat_rform (op : Fin 128) (g : Guard) (d a b : Fin 64) (l : Bool) : RWord.ofNat (rform op g d a b l) = ⟨op, g.pred, g.neg, d, a, b, l⟩ :=
  RWord.ofNat_toNat _
@[simp] theorem ofNat_mform (op : Fin 128) (g : Guard) (acc : Fin 8) (a b : Fin 64) (l : Bool) (f : Fin 8) :
    MWord.ofNat (mform op g acc a b l f) = ⟨op, g.pred, g.neg, acc, a, b, l, f⟩ := MWord.ofNat_toNat _

/-! ### Operands -/

@[simp] theorem guardOf_code (g : Guard) : guardOf g.pred g.neg = some g := by
  cases g with
  | always => rfl
  | on k n => simp [guardOf, Guard.pred, Guard.neg, k.isLt]
@[simp] theorem shapeOf_code (x : Shape) : shapeOf x.code.val = some x := by cases x <;> rfl
@[simp] theorem brimOf_code (b : Brim) : brimOf b.code = some b := by
  obtain ⟨i, x⟩ := b
  have hi := i.isLt
  have hx := x.code.isLt
  have h1 : (i.val * 8 + x.code.val) % 8 = x.code.val := by omega
  have h2 : (i.val * 8 + x.code.val) / 8 = i.val := by omega
  simp [brimOf, Brim.code, h1, h2]
@[simp] theorem srcOf_code (x : Src) : srcOf x.code x.bl = some x := by cases x <;> simp [srcOf, Src.code, Src.bl]
@[simp] theorem predOf_code (x : PReg) : predOf (PReg.code x) = some x := by simp [predOf, PReg.code, x.isLt]
@[simp] theorem psrcOf_code (x : PSrc) : psrcOf x.code x.bl = some x := by cases x <;> simp [psrcOf, PSrc.code, PSrc.bl]
@[simp] theorem vnumOf_code (x : VNum) : vnumOf (VNum.code x) = some x := by simp [vnumOf, VNum.code, x.isLt]
@[simp] theorem vsrcOf_code (x : VSrc) : vsrcOf x.code = some x := by
  cases x with
  | reg r => simp [vsrcOf, VSrc.code, VNum.code, r.isLt]
  | rnd => rfl
  | zero => rfl
  | lane => rfl
@[simp] theorem vopOf_code (x : VOp) : vopOf x.code x.bl = some x := by cases x <;> simp [vopOf, VOp.code, VOp.bl]
@[simp] theorem scaleOf_code (x : Fin 8) : scaleOf (scaleCode x) = some x := by simp [scaleOf, scaleCode, x.isLt]
@[simp] theorem specOf_code (x : SpecReg) : specOf x.code.val = some x := by cases x <;> rfl
@[simp] theorem scopeOf_code (x : Scope) : scopeOf x.code.val = some x := by cases x <;> rfl
@[simp] theorem vfmtOf_code (x : VFmt) : vfmtOf x.code.val = some x := by cases x <;> rfl
@[simp] theorem redOpOf_code (x : RedOp) : redOpOf x.code.val = some x := by cases x <;> rfl
@[simp] theorem packOf_code (x : PackFmt) : packOf x.code.val = some x := by cases x <;> rfl
@[simp] theorem mvOf_code (x : MvFmt) : mvOf x.code.val = some x := by cases x <;> rfl
@[simp] theorem engOf_code (e : Eng) (w : Fin 16) : engOf ((selCode e w).val / 16) = some e := by
  have := w.isLt; cases e <;> simp only [selCode, Eng.code] <;> (rw [show ∀ n : Nat, n < 16 → ∀ k, (k * 16 + n) / 16 = k from fun n h k => by omega]; rfl; omega)
@[simp] theorem selWord_code (e : Eng) (w : Fin 16) : selWord (selCode e w) = w := by
  have := w.isLt; exact Fin.ext (by simp only [selWord, selCode]; omega)
theorem Instr.checked_of_wf {i : Instr} (h : i.wf = true) : i.checked = some i := by simp [Instr.checked, h]

/-! ### Immediates in several fields -/

theorem wide_part (n : BitVec 18) : BitVec.ofNat 18 ((part n.toNat 4096).val * 4096 + (part n.toNat 64).val * 64 + (part n.toNat 1).val) = n := by
  have := n.isLt
  apply BitVec.eq_of_toNat_eq; simp [part]; omega
theorem imm_part (n : BitVec 12) : BitVec.ofNat 12 ((part n.toNat 64).val * 64 + (part n.toNat 1).val) = n := by
  have := n.isLt
  apply BitVec.eq_of_toNat_eq; simp [part]; omega
theorem six_part (n : BitVec 6) : BitVec.ofNat 6 (part n.toNat 1).val = n := by
  have := n.isLt
  apply BitVec.eq_of_toNat_eq; simp [part]; omega

/-! ### Field classes: what each reads from the fields the encoder writes -/

section
variable (op : Fin 128) (g : Guard)
theorem RWord.binary_code (d a : SReg) (b : Src) (f : Guard → SReg → SReg → Src → Instr) :
    RWord.binary ⟨op, g.pred, g.neg, d, a, b.code, b.bl⟩ f = some (f g d a b) := by simp [RWord.binary, RWord.guard, RWord.src]
theorem RWord.unary_code (d : SReg) (b : Src) (f : Guard → SReg → Src → Instr) :
    RWord.unary ⟨op, g.pred, g.neg, d, 0, b.code, b.bl⟩ f = some (f g d b) := by simp [RWord.unary, RWord.guard, RWord.src, RWord.zero]
theorem RWord.compare_code (d : PReg) (a : SReg) (b : Src) (f : Guard → PReg → SReg → Src → Instr) :
    RWord.compare ⟨op, g.pred, g.neg, PReg.code d, a, b.code, b.bl⟩ f = some (f g d a b) := by simp [RWord.compare, RWord.guard, RWord.src]
theorem RWord.plogic_code (d a : PReg) (b : PSrc) (f : Guard → PReg → PReg → PSrc → Instr) :
    RWord.plogic ⟨op, g.pred, g.neg, PReg.code d, PReg.code a, b.code, b.bl⟩ f = some (f g d a b) := by simp [RWord.plogic, RWord.guard]
theorem RWord.pair_code (a : SReg) (b : Src) (f : Guard → SReg → Src → Instr) :
    RWord.pair ⟨op, g.pred, g.neg, 0, a, b.code, b.bl⟩ f = some (f g a b) := by simp [RWord.pair, RWord.guard, RWord.src, RWord.zero]
theorem RWord.operand_code (b : Src) (f : Guard → Src → Instr) :
    RWord.operand ⟨op, g.pred, g.neg, 0, 0, b.code, b.bl⟩ f = some (f g b) := by simp [RWord.operand, RWord.guard, RWord.src, RWord.zero]
theorem RWord.bare_code (f : Guard → Instr) : RWord.bare ⟨op, g.pred, g.neg, 0, 0, 0, false⟩ f = some (f g) := by
  simp [RWord.bare, RWord.guard, RWord.zero]
theorem RWord.wideForm_code (o : BitVec 18) (f : Guard → BitVec 18 → Instr) :
    RWord.wideForm ⟨op, g.pred, g.neg, part o.toNat 4096, part o.toNat 64, part o.toNat 1, false⟩ f = some (f g o) := by
  simp [RWord.wideForm, RWord.guard, RWord.zero, RWord.wide, wide_part, -BitVec.ofNat_add]
theorem RWord.branchOff_code (a : SReg) (o : BitVec 12) (f : Guard → SReg → BitVec 12 → Instr) :
    RWord.branchOff ⟨op, g.pred, g.neg, part o.toNat 64, a, part o.toNat 1, false⟩ f = some (f g a o) := by
  simp [RWord.branchOff, RWord.guard, RWord.off12, imm_part, -BitVec.ofNat_add]
theorem RWord.branchAbs_code (a : SReg) (b : Brim) (f : Guard → SReg → Brim → Instr) :
    RWord.branchAbs ⟨op, g.pred, g.neg, 0, a, b.code, true⟩ f = some (f g a b) := by simp [RWord.branchAbs, RWord.guard, RWord.zero]
theorem RWord.strided_code (d : VNum) (a : SReg) (b : Src) (f : Guard → VNum → SReg → Src → Instr) :
    RWord.strided ⟨op, g.pred, g.neg, VNum.code d, a, b.code, b.bl⟩ f = some (f g d a b) := by simp [RWord.strided, RWord.guard, RWord.src]
theorem RWord.indexed_code (d : VNum) (a : SReg) (b : VSrc) (f : Guard → VNum → SReg → VSrc → Instr) :
    RWord.indexed ⟨op, g.pred, g.neg, VNum.code d, a, b.code, false⟩ f = some (f g d a b) := by simp [RWord.indexed, RWord.guard, RWord.zero]
theorem RWord.ordered_code (d a : SReg) (x : Scope) (f : Guard → SReg → SReg → Scope → Instr) :
    RWord.ordered ⟨op, g.pred, g.neg, d, a, x.code, false⟩ f = some (f g d a x) := by simp [RWord.ordered, RWord.guard, RWord.zero]
theorem RWord.indexedByte_code (d : Fin 8) (a : SReg) (b : Src) (f : Guard → Fin 8 → SReg → Src → Instr) :
    RWord.indexedByte ⟨op, g.pred, g.neg, scaleCode d, a, b.code, b.bl⟩ f = some (f g d a b) := by simp [RWord.indexedByte, RWord.guard, RWord.src]
theorem RWord.lanewise_code (d : VNum) (a : VSrc) (b : VOp) (f : Guard → VNum → VSrc → VOp → Instr) :
    RWord.lanewise ⟨op, g.pred, g.neg, VNum.code d, a.code, b.code, b.bl⟩ f = some (f g d a b) := by simp [RWord.lanewise, RWord.guard]
theorem RWord.vcompare_code (d : PReg) (a : VSrc) (b : VOp) (f : Guard → PReg → VSrc → VOp → Instr) :
    RWord.vcompare ⟨op, g.pred, g.neg, PReg.code d, a.code, b.code, b.bl⟩ f = some (f g d a b) := by simp [RWord.vcompare, RWord.guard]
theorem RWord.special_code (d : VNum) (a : VSrc) (f : Guard → VNum → VSrc → Instr) :
    RWord.special ⟨op, g.pred, g.neg, VNum.code d, a.code, 0, false⟩ f = some (f g d a) := by simp [RWord.special, RWord.guard, RWord.zero]
theorem RWord.coded_code (d : VNum) (a : VSrc) (s : VFmt) (c : Fin 8) (f : Guard → VNum → VSrc → Fin 8 → Fin 8 → Option Instr) :
    RWord.coded ⟨op, g.pred, g.neg, VNum.code d, a.code, colCode s c, false⟩ f = f g d a s.code c := by
  have h1 : (⟨(colCode s c).val / 8, by omega⟩ : Fin 8) = s.code := Fin.ext (by simp only [colCode]; omega)
  have h2 : (⟨(colCode s c).val % 8, by omega⟩ : Fin 8) = c := Fin.ext (by simp only [colCode]; omega)
  simp [RWord.coded, RWord.guard, RWord.zero, h1, h2]
end

/-! ### What a kind of slot reads -/

section
variable {i : Instr} {w : Nat}
theorem decodeWord_a {r : RWord} (e : RWord.ofNat w = r) (h : decodeScalar r = some i) : decodeWord .a w = .ok i := by
  subst e; simp only [decodeWord, h]
theorem decodeWord_b {r : RWord} (e : RWord.ofNat w = r) (h' : decodeScalar r = none) (h : decodeControl r = some i) : decodeWord .b w = .ok i := by
  subst e; simp only [decodeWord, h', h, Option.or]
theorem decodeWord_l {r : RWord} (e : RWord.ofNat w = r) (h : decodeMem r = some i) : decodeWord .l w = .ok i := by
  subst e; simp only [decodeWord, h]
theorem decodeWord_v {r : RWord} (e : RWord.ofNat w = r) (h : decodeVec r = some i) : decodeWord .v w = .ok i := by
  subst e; simp only [decodeWord, h]
theorem decodeWord_x {r : RWord} (e : RWord.ofNat w = r) (h' : decodeVec r = none) (h : decodeX r = some i) : decodeWord .x w = .ok i := by
  subst e; simp only [decodeWord, h', h, Option.or]
theorem decodeWord_e {r : RWord} (e : RWord.ofNat w = r) (h : decodeEngine r = some i) : decodeWord .e w = .ok i := by
  subst e; simp only [decodeWord, h]
theorem decodeWord_m {r : MWord} (e : MWord.ofNat w = r) (h : decodeMatrix r = some i) : decodeWord .m w = .ok i := by
  subst e; simp only [decodeWord, h]
theorem decodeWord_front {r : FWord} (e : FWord.ofNat w = r) (h : decodeFront r = some i) : decodeWord .front w = .ok i := by
  subst e; simp only [decodeWord, h]
end

end Sys2Proof
end

