-- ==== Sys2Proof/Laws/State.lean ====
section
/-!
SUPPORT. Sys2Proof/Laws/State.lean: what each update of the state leaves alone, field by field, and what it reads back as.
-/
namespace Sys2Proof.Machine

/-! ### setCore -/
@[simp] theorem State.setCore_traps (s : State) (c : CoreId) (k : Core) : (s.setCore c k).traps = s.traps := rfl
@[simp] theorem State.setCore_die0 (s : State) (c : CoreId) (k : Core) : (s.setCore c k).die0 = s.die0 := rfl
@[simp] theorem State.setCore_die1 (s : State) (c : CoreId) (k : Core) : (s.setCore c k).die1 = s.die1 := rfl
@[simp] theorem State.setCore_pkg (s : State) (c : CoreId) (k : Core) : (s.setCore c k).pkg = s.pkg := rfl
@[simp] theorem State.setCore_mem (s : State) (c : CoreId) (k : Core) : (s.setCore c k).mem = s.mem := rfl
@[simp] theorem State.setCore_poison (s : State) (c : CoreId) (k : Core) : (s.setCore c k).poison = s.poison := rfl
@[simp] theorem State.setCore_watch (s : State) (c : CoreId) (k : Core) : (s.setCore c k).watch = s.watch := rfl
@[simp] theorem State.setCore_flags (s : State) (c : CoreId) (k : Core) : (s.setCore c k).flags = s.flags := rfl
@[simp] theorem State.setCore_updates (s : State) (c : CoreId) (k : Core) : (s.setCore c k).updates = s.updates := rfl
@[simp] theorem State.setCore_issue (s : State) (c : CoreId) (k : Core) : (s.setCore c k).issue = s.issue := rfl
@[simp] theorem State.setCore_tick (s : State) (c : CoreId) (k : Core) : (s.setCore c k).tick = s.tick := rfl
@[simp] theorem State.setCore_agenda (s : State) (c : CoreId) (k : Core) : (s.setCore c k).agenda = s.agenda := rfl
@[simp] theorem State.setCore_frontWords (s : State) (c : CoreId) (k : Core) : (s.setCore c k).frontWords = s.frontWords := rfl
@[simp] theorem State.setCore_hart (s : State) (c : CoreId) (k : Core) : (s.setCore c k).hart = s.hart := rfl
@[simp] theorem State.setCore_rota (s : State) (c : CoreId) (k : Core) : (s.setCore c k).rota = s.rota := rfl
@[simp] theorem State.setCore_out (s : State) (c : CoreId) (k : Core) : (s.setCore c k).out = s.out := rfl

/-! ### mapCore -/
@[simp] theorem State.mapCore_traps (s : State) (c : CoreId) (f : Core → Core) : (s.mapCore c f).traps = s.traps := rfl
@[simp] theorem State.mapCore_die0 (s : State) (c : CoreId) (f : Core → Core) : (s.mapCore c f).die0 = s.die0 := rfl
@[simp] theorem State.mapCore_die1 (s : State) (c : CoreId) (f : Core → Core) : (s.mapCore c f).die1 = s.die1 := rfl
@[simp] theorem State.mapCore_pkg (s : State) (c : CoreId) (f : Core → Core) : (s.mapCore c f).pkg = s.pkg := rfl
@[simp] theorem State.mapCore_mem (s : State) (c : CoreId) (f : Core → Core) : (s.mapCore c f).mem = s.mem := rfl
@[simp] theorem State.mapCore_poison (s : State) (c : CoreId) (f : Core → Core) : (s.mapCore c f).poison = s.poison := rfl
@[simp] theorem State.mapCore_watch (s : State) (c : CoreId) (f : Core → Core) : (s.mapCore c f).watch = s.watch := rfl
@[simp] theorem State.mapCore_flags (s : State) (c : CoreId) (f : Core → Core) : (s.mapCore c f).flags = s.flags := rfl
@[simp] theorem State.mapCore_updates (s : State) (c : CoreId) (f : Core → Core) : (s.mapCore c f).updates = s.updates := rfl
@[simp] theorem State.mapCore_issue (s : State) (c : CoreId) (f : Core → Core) : (s.mapCore c f).issue = s.issue := rfl
@[simp] theorem State.mapCore_tick (s : State) (c : CoreId) (f : Core → Core) : (s.mapCore c f).tick = s.tick := rfl
@[simp] theorem State.mapCore_agenda (s : State) (c : CoreId) (f : Core → Core) : (s.mapCore c f).agenda = s.agenda := rfl
@[simp] theorem State.mapCore_frontWords (s : State) (c : CoreId) (f : Core → Core) : (s.mapCore c f).frontWords = s.frontWords := rfl
@[simp] theorem State.mapCore_hart (s : State) (c : CoreId) (f : Core → Core) : (s.mapCore c f).hart = s.hart := rfl
@[simp] theorem State.mapCore_rota (s : State) (c : CoreId) (f : Core → Core) : (s.mapCore c f).rota = s.rota := rfl
@[simp] theorem State.mapCore_out (s : State) (c : CoreId) (f : Core → Core) : (s.mapCore c f).out = s.out := rfl

/-! ### mapCtx -/
@[simp] theorem State.mapCtx_traps (s : State) (c : CoreId) (x : CtxId) (f : Ctx → Ctx) : (s.mapCtx c x f).traps = s.traps := rfl
@[simp] theorem State.mapCtx_die0 (s : State) (c : CoreId) (x : CtxId) (f : Ctx → Ctx) : (s.mapCtx c x f).die0 = s.die0 := rfl
@[simp] theorem State.mapCtx_die1 (s : State) (c : CoreId) (x : CtxId) (f : Ctx → Ctx) : (s.mapCtx c x f).die1 = s.die1 := rfl
@[simp] theorem State.mapCtx_pkg (s : State) (c : CoreId) (x : CtxId) (f : Ctx → Ctx) : (s.mapCtx c x f).pkg = s.pkg := rfl
@[simp] theorem State.mapCtx_mem (s : State) (c : CoreId) (x : CtxId) (f : Ctx → Ctx) : (s.mapCtx c x f).mem = s.mem := rfl
@[simp] theorem State.mapCtx_poison (s : State) (c : CoreId) (x : CtxId) (f : Ctx → Ctx) : (s.mapCtx c x f).poison = s.poison := rfl
@[simp] theorem State.mapCtx_watch (s : State) (c : CoreId) (x : CtxId) (f : Ctx → Ctx) : (s.mapCtx c x f).watch = s.watch := rfl
@[simp] theorem State.mapCtx_flags (s : State) (c : CoreId) (x : CtxId) (f : Ctx → Ctx) : (s.mapCtx c x f).flags = s.flags := rfl
@[simp] theorem State.mapCtx_updates (s : State) (c : CoreId) (x : CtxId) (f : Ctx → Ctx) : (s.mapCtx c x f).updates = s.updates := rfl
@[simp] theorem State.mapCtx_issue (s : State) (c : CoreId) (x : CtxId) (f : Ctx → Ctx) : (s.mapCtx c x f).issue = s.issue := rfl
@[simp] theorem State.mapCtx_tick (s : State) (c : CoreId) (x : CtxId) (f : Ctx → Ctx) : (s.mapCtx c x f).tick = s.tick := rfl
@[simp] theorem State.mapCtx_agenda (s : State) (c : CoreId) (x : CtxId) (f : Ctx → Ctx) : (s.mapCtx c x f).agenda = s.agenda := rfl
@[simp] theorem State.mapCtx_frontWords (s : State) (c : CoreId) (x : CtxId) (f : Ctx → Ctx) : (s.mapCtx c x f).frontWords = s.frontWords := rfl
@[simp] theorem State.mapCtx_hart (s : State) (c : CoreId) (x : CtxId) (f : Ctx → Ctx) : (s.mapCtx c x f).hart = s.hart := rfl
@[simp] theorem State.mapCtx_rota (s : State) (c : CoreId) (x : CtxId) (f : Ctx → Ctx) : (s.mapCtx c x f).rota = s.rota := rfl
@[simp] theorem State.mapCtx_out (s : State) (c : CoreId) (x : CtxId) (f : Ctx → Ctx) : (s.mapCtx c x f).out = s.out := rfl

/-! ### mapMe -/
@[simp] theorem State.mapMe_traps (s : State) (f : Core → Core) : (s.mapMe f).traps = s.traps := rfl
@[simp] theorem State.mapMe_die0 (s : State) (f : Core → Core) : (s.mapMe f).die0 = s.die0 := rfl
@[simp] theorem State.mapMe_die1 (s : State) (f : Core → Core) : (s.mapMe f).die1 = s.die1 := rfl
@[simp] theorem State.mapMe_pkg (s : State) (f : Core → Core) : (s.mapMe f).pkg = s.pkg := rfl
@[simp] theorem State.mapMe_mem (s : State) (f : Core → Core) : (s.mapMe f).mem = s.mem := rfl
@[simp] theorem State.mapMe_poison (s : State) (f : Core → Core) : (s.mapMe f).poison = s.poison := rfl
@[simp] theorem State.mapMe_watch (s : State) (f : Core → Core) : (s.mapMe f).watch = s.watch := rfl
@[simp] theorem State.mapMe_flags (s : State) (f : Core → Core) : (s.mapMe f).flags = s.flags := rfl
@[simp] theorem State.mapMe_updates (s : State) (f : Core → Core) : (s.mapMe f).updates = s.updates := rfl
@[simp] theorem State.mapMe_issue (s : State) (f : Core → Core) : (s.mapMe f).issue = s.issue := rfl
@[simp] theorem State.mapMe_tick (s : State) (f : Core → Core) : (s.mapMe f).tick = s.tick := rfl
@[simp] theorem State.mapMe_agenda (s : State) (f : Core → Core) : (s.mapMe f).agenda = s.agenda := rfl
@[simp] theorem State.mapMe_frontWords (s : State) (f : Core → Core) : (s.mapMe f).frontWords = s.frontWords := rfl
@[simp] theorem State.mapMe_hart (s : State) (f : Core → Core) : (s.mapMe f).hart = s.hart := rfl
@[simp] theorem State.mapMe_rota (s : State) (f : Core → Core) : (s.mapMe f).rota = s.rota := rfl
@[simp] theorem State.mapMe_out (s : State) (f : Core → Core) : (s.mapMe f).out = s.out := rfl

/-! ### mapMy -/
@[simp] theorem State.mapMy_traps (s : State) (f : Ctx → Ctx) : (s.mapMy f).traps = s.traps := rfl
@[simp] theorem State.mapMy_die0 (s : State) (f : Ctx → Ctx) : (s.mapMy f).die0 = s.die0 := rfl
@[simp] theorem State.mapMy_die1 (s : State) (f : Ctx → Ctx) : (s.mapMy f).die1 = s.die1 := rfl
@[simp] theorem State.mapMy_pkg (s : State) (f : Ctx → Ctx) : (s.mapMy f).pkg = s.pkg := rfl
@[simp] theorem State.mapMy_mem (s : State) (f : Ctx → Ctx) : (s.mapMy f).mem = s.mem := rfl
@[simp] theorem State.mapMy_poison (s : State) (f : Ctx → Ctx) : (s.mapMy f).poison = s.poison := rfl
@[simp] theorem State.mapMy_watch (s : State) (f : Ctx → Ctx) : (s.mapMy f).watch = s.watch := rfl
@[simp] theorem State.mapMy_flags (s : State) (f : Ctx → Ctx) : (s.mapMy f).flags = s.flags := rfl
@[simp] theorem State.mapMy_updates (s : State) (f : Ctx → Ctx) : (s.mapMy f).updates = s.updates := rfl
@[simp] theorem State.mapMy_issue (s : State) (f : Ctx → Ctx) : (s.mapMy f).issue = s.issue := rfl
@[simp] theorem State.mapMy_tick (s : State) (f : Ctx → Ctx) : (s.mapMy f).tick = s.tick := rfl
@[simp] theorem State.mapMy_agenda (s : State) (f : Ctx → Ctx) : (s.mapMy f).agenda = s.agenda := rfl
@[simp] theorem State.mapMy_frontWords (s : State) (f : Ctx → Ctx) : (s.mapMy f).frontWords = s.frontWords := rfl
@[simp] theorem State.mapMy_hart (s : State) (f : Ctx → Ctx) : (s.mapMy f).hart = s.hart := rfl
@[simp] theorem State.mapMy_rota (s : State) (f : Ctx → Ctx) : (s.mapMy f).rota = s.rota := rfl
@[simp] theorem State.mapMy_out (s : State) (f : Ctx → Ctx) : (s.mapMy f).out = s.out := rfl

/-! ### setDie -/
@[simp] theorem State.setDie_cores (s : State) (d : DieId) (v : Die) : (s.setDie d v).cores = s.cores := by unfold State.setDie; split <;> rfl
@[simp] theorem State.setDie_traps (s : State) (d : DieId) (v : Die) : (s.setDie d v).traps = s.traps := by unfold State.setDie; split <;> rfl
@[simp] theorem State.setDie_pkg (s : State) (d : DieId) (v : Die) : (s.setDie d v).pkg = s.pkg := by unfold State.setDie; split <;> rfl
@[simp] theorem State.setDie_mem (s : State) (d : DieId) (v : Die) : (s.setDie d v).mem = s.mem := by unfold State.setDie; split <;> rfl
@[simp] theorem State.setDie_poison (s : State) (d : DieId) (v : Die) : (s.setDie d v).poison = s.poison := by unfold State.setDie; split <;> rfl
@[simp] theorem State.setDie_watch (s : State) (d : DieId) (v : Die) : (s.setDie d v).watch = s.watch := by unfold State.setDie; split <;> rfl
@[simp] theorem State.setDie_flags (s : State) (d : DieId) (v : Die) : (s.setDie d v).flags = s.flags := by unfold State.setDie; split <;> rfl
@[simp] theorem State.setDie_updates (s : State) (d : DieId) (v : Die) : (s.setDie d v).updates = s.updates := by unfold State.setDie; split <;> rfl
@[simp] theorem State.setDie_issue (s : State) (d : DieId) (v : Die) : (s.setDie d v).issue = s.issue := by unfold State.setDie; split <;> rfl
@[simp] theorem State.setDie_tick (s : State) (d : DieId) (v : Die) : (s.setDie d v).tick = s.tick := by unfold State.setDie; split <;> rfl
@[simp] theorem State.setDie_agenda (s : State) (d : DieId) (v : Die) : (s.setDie d v).agenda = s.agenda := by unfold State.setDie; split <;> rfl
@[simp] theorem State.setDie_frontWords (s : State) (d : DieId) (v : Die) : (s.setDie d v).frontWords = s.frontWords := by unfold State.setDie; split <;> rfl
@[simp] theorem State.setDie_hart (s : State) (d : DieId) (v : Die) : (s.setDie d v).hart = s.hart := by unfold State.setDie; split <;> rfl
@[simp] theorem State.setDie_rota (s : State) (d : DieId) (v : Die) : (s.setDie d v).rota = s.rota := by unfold State.setDie; split <;> rfl
@[simp] theorem State.setDie_out (s : State) (d : DieId) (v : Die) : (s.setDie d v).out = s.out := by unfold State.setDie; split <;> rfl

/-! ### mapDie -/
@[simp] theorem State.mapDie_cores (s : State) (d : DieId) (f : Die → Die) : (s.mapDie d f).cores = s.cores := State.setDie_cores s d _
@[simp] theorem State.mapDie_traps (s : State) (d : DieId) (f : Die → Die) : (s.mapDie d f).traps = s.traps := State.setDie_traps s d _
@[simp] theorem State.mapDie_pkg (s : State) (d : DieId) (f : Die → Die) : (s.mapDie d f).pkg = s.pkg := State.setDie_pkg s d _
@[simp] theorem State.mapDie_mem (s : State) (d : DieId) (f : Die → Die) : (s.mapDie d f).mem = s.mem := State.setDie_mem s d _
@[simp] theorem State.mapDie_poison (s : State) (d : DieId) (f : Die → Die) : (s.mapDie d f).poison = s.poison := State.setDie_poison s d _
@[simp] theorem State.mapDie_watch (s : State) (d : DieId) (f : Die → Die) : (s.mapDie d f).watch = s.watch := State.setDie_watch s d _
@[simp] theorem State.mapDie_flags (s : State) (d : DieId) (f : Die → Die) : (s.mapDie d f).flags = s.flags := State.setDie_flags s d _
@[simp] theorem State.mapDie_updates (s : State) (d : DieId) (f : Die → Die) : (s.mapDie d f).updates = s.updates := State.setDie_updates s d _
@[simp] theorem State.mapDie_issue (s : State) (d : DieId) (f : Die → Die) : (s.mapDie d f).issue = s.issue := State.setDie_issue s d _
@[simp] theorem State.mapDie_tick (s : State) (d : DieId) (f : Die → Die) : (s.mapDie d f).tick = s.tick := State.setDie_tick s d _
@[simp] theorem State.mapDie_agenda (s : State) (d : DieId) (f : Die → Die) : (s.mapDie d f).agenda = s.agenda := State.setDie_agenda s d _
@[simp] theorem State.mapDie_frontWords (s : State) (d : DieId) (f : Die → Die) : (s.mapDie d f).frontWords = s.frontWords := State.setDie_frontWords s d _
@[simp] theorem State.mapDie_hart (s : State) (d : DieId) (f : Die → Die) : (s.mapDie d f).hart = s.hart := State.setDie_hart s d _
@[simp] theorem State.mapDie_rota (s : State) (d : DieId) (f : Die → Die) : (s.mapDie d f).rota = s.rota := State.setDie_rota s d _
@[simp] theorem State.mapDie_out (s : State) (d : DieId) (f : Die → Die) : (s.mapDie d f).out = s.out := State.setDie_out s d _

/-! ### mapPkg -/
@[simp] theorem State.mapPkg_cores (s : State) (f : Pkg → Pkg) : (s.mapPkg f).cores = s.cores := rfl
@[simp] theorem State.mapPkg_traps (s : State) (f : Pkg → Pkg) : (s.mapPkg f).traps = s.traps := rfl
@[simp] theorem State.mapPkg_die0 (s : State) (f : Pkg → Pkg) : (s.mapPkg f).die0 = s.die0 := rfl
@[simp] theorem State.mapPkg_die1 (s : State) (f : Pkg → Pkg) : (s.mapPkg f).die1 = s.die1 := rfl
@[simp] theorem State.mapPkg_mem (s : State) (f : Pkg → Pkg) : (s.mapPkg f).mem = s.mem := rfl
@[simp] theorem State.mapPkg_poison (s : State) (f : Pkg → Pkg) : (s.mapPkg f).poison = s.poison := rfl
@[simp] theorem State.mapPkg_watch (s : State) (f : Pkg → Pkg) : (s.mapPkg f).watch = s.watch := rfl
@[simp] theorem State.mapPkg_flags (s : State) (f : Pkg → Pkg) : (s.mapPkg f).flags = s.flags := rfl
@[simp] theorem State.mapPkg_updates (s : State) (f : Pkg → Pkg) : (s.mapPkg f).updates = s.updates := rfl
@[simp] theorem State.mapPkg_issue (s : State) (f : Pkg → Pkg) : (s.mapPkg f).issue = s.issue := rfl
@[simp] theorem State.mapPkg_tick (s : State) (f : Pkg → Pkg) : (s.mapPkg f).tick = s.tick := rfl
@[simp] theorem State.mapPkg_agenda (s : State) (f : Pkg → Pkg) : (s.mapPkg f).agenda = s.agenda := rfl
@[simp] theorem State.mapPkg_frontWords (s : State) (f : Pkg → Pkg) : (s.mapPkg f).frontWords = s.frontWords := rfl
@[simp] theorem State.mapPkg_hart (s : State) (f : Pkg → Pkg) : (s.mapPkg f).hart = s.hart := rfl
@[simp] theorem State.mapPkg_rota (s : State) (f : Pkg → Pkg) : (s.mapPkg f).rota = s.rota := rfl
@[simp] theorem State.mapPkg_out (s : State) (f : Pkg → Pkg) : (s.mapPkg f).out = s.out := rfl

/-! ### mapIssue -/
@[simp] theorem State.mapIssue_cores (s : State) (f : Issue → Issue) : (s.mapIssue f).cores = s.cores := rfl
@[simp] theorem State.mapIssue_traps (s : State) (f : Issue → Issue) : (s.mapIssue f).traps = s.traps := rfl
@[simp] theorem State.mapIssue_die0 (s : State) (f : Issue → Issue) : (s.mapIssue f).die0 = s.die0 := rfl
@[simp] theorem State.mapIssue_die1 (s : State) (f : Issue → Issue) : (s.mapIssue f).die1 = s.die1 := rfl
@[simp] theorem State.mapIssue_pkg (s : State) (f : Issue → Issue) : (s.mapIssue f).pkg = s.pkg := rfl
@[simp] theorem State.mapIssue_mem (s : State) (f : Issue → Issue) : (s.mapIssue f).mem = s.mem := rfl
@[simp] theorem State.mapIssue_poison (s : State) (f : Issue → Issue) : (s.mapIssue f).poison = s.poison := rfl
@[simp] theorem State.mapIssue_watch (s : State) (f : Issue → Issue) : (s.mapIssue f).watch = s.watch := rfl
@[simp] theorem State.mapIssue_flags (s : State) (f : Issue → Issue) : (s.mapIssue f).flags = s.flags := rfl
@[simp] theorem State.mapIssue_updates (s : State) (f : Issue → Issue) : (s.mapIssue f).updates = s.updates := rfl
@[simp] theorem State.mapIssue_tick (s : State) (f : Issue → Issue) : (s.mapIssue f).tick = s.tick := rfl
@[simp] theorem State.mapIssue_agenda (s : State) (f : Issue → Issue) : (s.mapIssue f).agenda = s.agenda := rfl
@[simp] theorem State.mapIssue_frontWords (s : State) (f : Issue → Issue) : (s.mapIssue f).frontWords = s.frontWords := rfl
@[simp] theorem State.mapIssue_hart (s : State) (f : Issue → Issue) : (s.mapIssue f).hart = s.hart := rfl
@[simp] theorem State.mapIssue_rota (s : State) (f : Issue → Issue) : (s.mapIssue f).rota = s.rota := rfl
@[simp] theorem State.mapIssue_out (s : State) (f : Issue → Issue) : (s.mapIssue f).out = s.out := rfl

/-! ### noteWatch -/
@[simp] theorem State.noteWatch_cores (s : State) (pa n : Nat) : (s.noteWatch pa n).cores = s.cores := rfl
@[simp] theorem State.noteWatch_traps (s : State) (pa n : Nat) : (s.noteWatch pa n).traps = s.traps := rfl
@[simp] theorem State.noteWatch_die0 (s : State) (pa n : Nat) : (s.noteWatch pa n).die0 = s.die0 := rfl
@[simp] theorem State.noteWatch_die1 (s : State) (pa n : Nat) : (s.noteWatch pa n).die1 = s.die1 := rfl
@[simp] theorem State.noteWatch_pkg (s : State) (pa n : Nat) : (s.noteWatch pa n).pkg = s.pkg := rfl
@[simp] theorem State.noteWatch_mem (s : State) (pa n : Nat) : (s.noteWatch pa n).mem = s.mem := rfl
@[simp] theorem State.noteWatch_poison (s : State) (pa n : Nat) : (s.noteWatch pa n).poison = s.poison := rfl
@[simp] theorem State.noteWatch_flags (s : State) (pa n : Nat) : (s.noteWatch pa n).flags = s.flags := rfl
@[simp] theorem State.noteWatch_updates (s : State) (pa n : Nat) : (s.noteWatch pa n).updates = s.updates := rfl
@[simp] theorem State.noteWatch_issue (s : State) (pa n : Nat) : (s.noteWatch pa n).issue = s.issue := rfl
@[simp] theorem State.noteWatch_tick (s : State) (pa n : Nat) : (s.noteWatch pa n).tick = s.tick := rfl
@[simp] theorem State.noteWatch_agenda (s : State) (pa n : Nat) : (s.noteWatch pa n).agenda = s.agenda := rfl
@[simp] theorem State.noteWatch_frontWords (s : State) (pa n : Nat) : (s.noteWatch pa n).frontWords = s.frontWords := rfl
@[simp] theorem State.noteWatch_hart (s : State) (pa n : Nat) : (s.noteWatch pa n).hart = s.hart := rfl
@[simp] theorem State.noteWatch_rota (s : State) (pa n : Nat) : (s.noteWatch pa n).rota = s.rota := rfl
@[simp] theorem State.noteWatch_out (s : State) (pa n : Nat) : (s.noteWatch pa n).out = s.out := rfl

/-! ### setTrapQ -/
@[simp] theorem State.setTrapQ_cores (s : State) (cl : ClusterId) (q : TrapQueue) : (s.setTrapQ cl q).cores = s.cores := rfl
@[simp] theorem State.setTrapQ_die0 (s : State) (cl : ClusterId) (q : TrapQueue) : (s.setTrapQ cl q).die0 = s.die0 := rfl
@[simp] theorem State.setTrapQ_die1 (s : State) (cl : ClusterId) (q : TrapQueue) : (s.setTrapQ cl q).die1 = s.die1 := rfl
@[simp] theorem State.setTrapQ_pkg (s : State) (cl : ClusterId) (q : TrapQueue) : (s.setTrapQ cl q).pkg = s.pkg := rfl
@[simp] theorem State.setTrapQ_mem (s : State) (cl : ClusterId) (q : TrapQueue) : (s.setTrapQ cl q).mem = s.mem := rfl
@[simp] theorem State.setTrapQ_poison (s : State) (cl : ClusterId) (q : TrapQueue) : (s.setTrapQ cl q).poison = s.poison := rfl
@[simp] theorem State.setTrapQ_watch (s : State) (cl : ClusterId) (q : TrapQueue) : (s.setTrapQ cl q).watch = s.watch := rfl
@[simp] theorem State.setTrapQ_flags (s : State) (cl : ClusterId) (q : TrapQueue) : (s.setTrapQ cl q).flags = s.flags := rfl
@[simp] theorem State.setTrapQ_updates (s : State) (cl : ClusterId) (q : TrapQueue) : (s.setTrapQ cl q).updates = s.updates := rfl
@[simp] theorem State.setTrapQ_issue (s : State) (cl : ClusterId) (q : TrapQueue) : (s.setTrapQ cl q).issue = s.issue := rfl
@[simp] theorem State.setTrapQ_tick (s : State) (cl : ClusterId) (q : TrapQueue) : (s.setTrapQ cl q).tick = s.tick := rfl
@[simp] theorem State.setTrapQ_agenda (s : State) (cl : ClusterId) (q : TrapQueue) : (s.setTrapQ cl q).agenda = s.agenda := rfl
@[simp] theorem State.setTrapQ_frontWords (s : State) (cl : ClusterId) (q : TrapQueue) : (s.setTrapQ cl q).frontWords = s.frontWords := rfl
@[simp] theorem State.setTrapQ_hart (s : State) (cl : ClusterId) (q : TrapQueue) : (s.setTrapQ cl q).hart = s.hart := rfl
@[simp] theorem State.setTrapQ_rota (s : State) (cl : ClusterId) (q : TrapQueue) : (s.setTrapQ cl q).rota = s.rota := rfl
@[simp] theorem State.setTrapQ_out (s : State) (cl : ClusterId) (q : TrapQueue) : (s.setTrapQ cl q).out = s.out := rfl

/-! ### Readers -/
@[simp] theorem State.trapQ_setCore (s : State) (c : CoreId) (k : Core) (cl2 : ClusterId) : (s.setCore c k).trapQ cl2 = s.trapQ cl2 := by simp [State.trapQ]
@[simp] theorem State.die_setCore (s : State) (c : CoreId) (k : Core) (d2 : DieId) : (s.setCore c k).die d2 = s.die d2 := by simp [State.die]
@[simp] theorem State.trapQ_mapCore (s : State) (c : CoreId) (f : Core → Core) (cl2 : ClusterId) : (s.mapCore c f).trapQ cl2 = s.trapQ cl2 := by simp [State.trapQ]
@[simp] theorem State.die_mapCore (s : State) (c : CoreId) (f : Core → Core) (d2 : DieId) : (s.mapCore c f).die d2 = s.die d2 := by simp [State.die]
@[simp] theorem State.trapQ_mapCtx (s : State) (c : CoreId) (x : CtxId) (f : Ctx → Ctx) (cl2 : ClusterId) : (s.mapCtx c x f).trapQ cl2 = s.trapQ cl2 := by simp [State.trapQ]
@[simp] theorem State.die_mapCtx (s : State) (c : CoreId) (x : CtxId) (f : Ctx → Ctx) (d2 : DieId) : (s.mapCtx c x f).die d2 = s.die d2 := by simp [State.die]
@[simp] theorem State.trapQ_mapMe (s : State) (f : Core → Core) (cl2 : ClusterId) : (s.mapMe f).trapQ cl2 = s.trapQ cl2 := by simp [State.trapQ]
@[simp] theorem State.die_mapMe (s : State) (f : Core → Core) (d2 : DieId) : (s.mapMe f).die d2 = s.die d2 := by simp [State.die]
@[simp] theorem State.trapQ_mapMy (s : State) (f : Ctx → Ctx) (cl2 : ClusterId) : (s.mapMy f).trapQ cl2 = s.trapQ cl2 := by simp [State.trapQ]
@[simp] theorem State.die_mapMy (s : State) (f : Ctx → Ctx) (d2 : DieId) : (s.mapMy f).die d2 = s.die d2 := by simp [State.die]
@[simp] theorem State.core_setDie (s : State) (d : DieId) (v : Die) (c2 : CoreId) : (s.setDie d v).core c2 = s.core c2 := by simp [State.core]
@[simp] theorem State.ctx_setDie (s : State) (d : DieId) (v : Die) (c2 : CoreId) (x2 : CtxId) : (s.setDie d v).ctx c2 x2 = s.ctx c2 x2 := by simp [State.ctx, State.core]
@[simp] theorem State.trapQ_setDie (s : State) (d : DieId) (v : Die) (cl2 : ClusterId) : (s.setDie d v).trapQ cl2 = s.trapQ cl2 := by simp [State.trapQ]
@[simp] theorem State.core_mapDie (s : State) (d : DieId) (f : Die → Die) (c2 : CoreId) : (s.mapDie d f).core c2 = s.core c2 := by simp [State.core]
@[simp] theorem State.ctx_mapDie (s : State) (d : DieId) (f : Die → Die) (c2 : CoreId) (x2 : CtxId) : (s.mapDie d f).ctx c2 x2 = s.ctx c2 x2 := by simp [State.ctx, State.core]
@[simp] theorem State.trapQ_mapDie (s : State) (d : DieId) (f : Die → Die) (cl2 : ClusterId) : (s.mapDie d f).trapQ cl2 = s.trapQ cl2 := by simp [State.trapQ]
@[simp] theorem State.core_mapPkg (s : State) (f : Pkg → Pkg) (c2 : CoreId) : (s.mapPkg f).core c2 = s.core c2 := by simp [State.core]
@[simp] theorem State.ctx_mapPkg (s : State) (f : Pkg → Pkg) (c2 : CoreId) (x2 : CtxId) : (s.mapPkg f).ctx c2 x2 = s.ctx c2 x2 := by simp [State.ctx, State.core]
@[simp] theorem State.trapQ_mapPkg (s : State) (f : Pkg → Pkg) (cl2 : ClusterId) : (s.mapPkg f).trapQ cl2 = s.trapQ cl2 := by simp [State.trapQ]
@[simp] theorem State.die_mapPkg (s : State) (f : Pkg → Pkg) (d2 : DieId) : (s.mapPkg f).die d2 = s.die d2 := by simp [State.die]
@[simp] theorem State.core_mapIssue (s : State) (f : Issue → Issue) (c2 : CoreId) : (s.mapIssue f).core c2 = s.core c2 := by simp [State.core]
@[simp] theorem State.ctx_mapIssue (s : State) (f : Issue → Issue) (c2 : CoreId) (x2 : CtxId) : (s.mapIssue f).ctx c2 x2 = s.ctx c2 x2 := by simp [State.ctx, State.core]
@[simp] theorem State.trapQ_mapIssue (s : State) (f : Issue → Issue) (cl2 : ClusterId) : (s.mapIssue f).trapQ cl2 = s.trapQ cl2 := by simp [State.trapQ]
@[simp] theorem State.die_mapIssue (s : State) (f : Issue → Issue) (d2 : DieId) : (s.mapIssue f).die d2 = s.die d2 := by simp [State.die]
@[simp] theorem State.core_noteWatch (s : State) (pa n : Nat) (c2 : CoreId) : (s.noteWatch pa n).core c2 = s.core c2 := by simp [State.core]
@[simp] theorem State.ctx_noteWatch (s : State) (pa n : Nat) (c2 : CoreId) (x2 : CtxId) : (s.noteWatch pa n).ctx c2 x2 = s.ctx c2 x2 := by simp [State.ctx, State.core]
@[simp] theorem State.trapQ_noteWatch (s : State) (pa n : Nat) (cl2 : ClusterId) : (s.noteWatch pa n).trapQ cl2 = s.trapQ cl2 := by simp [State.trapQ]
@[simp] theorem State.die_noteWatch (s : State) (pa n : Nat) (d2 : DieId) : (s.noteWatch pa n).die d2 = s.die d2 := by simp [State.die]
@[simp] theorem State.core_setTrapQ (s : State) (cl : ClusterId) (q : TrapQueue) (c2 : CoreId) : (s.setTrapQ cl q).core c2 = s.core c2 := by simp [State.core]
@[simp] theorem State.ctx_setTrapQ (s : State) (cl : ClusterId) (q : TrapQueue) (c2 : CoreId) (x2 : CtxId) : (s.setTrapQ cl q).ctx c2 x2 = s.ctx c2 x2 := by simp [State.ctx, State.core]
@[simp] theorem State.die_setTrapQ (s : State) (cl : ClusterId) (q : TrapQueue) (d2 : DieId) : (s.setTrapQ cl q).die d2 = s.die d2 := by simp [State.die]

@[simp] theorem State.core_setCore_self (s : State) (c : CoreId) (k : Core) : (s.setCore c k).core c = k := by
  simp [State.core, State.setCore]
theorem State.core_setCore (s : State) (c e : CoreId) (k : Core) : (s.setCore c k).core e = if c = e then k else s.core e := by
  simp only [State.core, State.setCore, Fin.getElem_fin, Vector.getElem_set, Fin.ext_iff]
@[simp] theorem State.core_setCore_ne (s : State) {c e : CoreId} (k : Core) (h : c ≠ e) : (s.setCore c k).core e = s.core e := by
  rw [State.core_setCore, if_neg h]
@[simp] theorem State.core_mapCore_self (s : State) (c : CoreId) (f : Core → Core) : (s.mapCore c f).core c = f (s.core c) :=
  State.core_setCore_self ..
theorem State.core_mapCore (s : State) (c e : CoreId) (f : Core → Core) : (s.mapCore c f).core e = if c = e then f (s.core e) else s.core e := by
  unfold State.mapCore; rw [State.core_setCore]; split <;> simp_all
@[simp] theorem State.core_mapCore_ne (s : State) {c e : CoreId} (f : Core → Core) (h : c ≠ e) : (s.mapCore c f).core e = s.core e :=
  State.core_setCore_ne _ _ h
@[simp] theorem State.setCore_core (s : State) (c : CoreId) : s.setCore c (s.core c) = s := by
  simp [State.setCore, State.core]
@[simp] theorem Core.ctx_setCtx_self (k : Core) (x : CtxId) (v : Ctx) : (k.setCtx x v).ctx x = v := by simp [Core.ctx, Core.setCtx]
theorem Core.ctx_setCtx (k : Core) (x y : CtxId) (v : Ctx) : (k.setCtx x v).ctx y = if x = y then v else k.ctx y := by
  simp only [Core.ctx, Core.setCtx, Fin.getElem_fin, Vector.getElem_set, Fin.ext_iff]
@[simp] theorem Core.ctx_setCtx_ne (k : Core) {x y : CtxId} (v : Ctx) (h : x ≠ y) : (k.setCtx x v).ctx y = k.ctx y := by
  rw [Core.ctx_setCtx, if_neg h]
theorem Core.ctx_mapCtx (k : Core) (x y : CtxId) (f : Ctx → Ctx) : (k.mapCtx x f).ctx y = if x = y then f (k.ctx y) else k.ctx y := by
  unfold Core.mapCtx; rw [Core.ctx_setCtx]; split <;> simp_all
theorem State.ctx_mapCtx (s : State) (c e : CoreId) (x y : CtxId) (f : Ctx → Ctx) :
    (s.mapCtx c x f).ctx e y = if c = e ∧ x = y then f (s.ctx e y) else s.ctx e y := by
  unfold State.mapCtx State.ctx; rw [State.core_mapCore]; split
  · rw [Core.ctx_mapCtx]; split <;> simp_all
  · simp_all
@[simp] theorem State.ctx_mapCtx_self (s : State) (c : CoreId) (x : CtxId) (f : Ctx → Ctx) : (s.mapCtx c x f).ctx c x = f (s.ctx c x) := by
  rw [State.ctx_mapCtx, if_pos ⟨rfl, rfl⟩]
@[simp] theorem State.my_mapMy (s : State) (f : Ctx → Ctx) : (s.mapMy f).my = f s.my := State.ctx_mapCtx_self ..
@[simp] theorem State.me_mapMe (s : State) (f : Core → Core) : (s.mapMe f).me = f s.me := State.core_mapCore_self ..
@[simp] theorem State.die_setDie_self (s : State) (d : DieId) (v : Die) : (s.setDie d v).die d = v := by
  unfold State.die State.setDie; split <;> simp_all
theorem State.die_setDie (s : State) (d e : DieId) (v : Die) : (s.setDie d v).die e = if d = e then v else s.die e := by
  match d, e with
  | ⟨0, _⟩, ⟨0, _⟩ | ⟨0, _⟩, ⟨1, _⟩ | ⟨1, _⟩, ⟨0, _⟩ | ⟨1, _⟩, ⟨1, _⟩ => rfl
@[simp] theorem State.die_mapDie_self (s : State) (d : DieId) (f : Die → Die) : (s.mapDie d f).die d = f (s.die d) :=
  State.die_setDie_self ..
@[simp] theorem State.trapQ_setTrapQ_self (s : State) (cl : ClusterId) (q : TrapQueue) : (s.setTrapQ cl q).trapQ cl = q := by
  simp [State.trapQ, State.setTrapQ]
@[simp] theorem State.mapPkg_pkg (s : State) (f : Pkg → Pkg) : (s.mapPkg f).pkg = f s.pkg := rfl
@[simp] theorem State.mapIssue_issue (s : State) (f : Issue → Issue) : (s.mapIssue f).issue = f s.issue := rfl

/-! ### A core under setCtx -/
@[simp] theorem Core.setCtx_running (k : Core) (x : CtxId) (v : Ctx) : (k.setCtx x v).running = k.running := rfl
@[simp] theorem Core.setCtx_cycle (k : Core) (x : CtxId) (v : Ctx) : (k.setCtx x v).cycle = k.cycle := rfl
@[simp] theorem Core.setCtx_acc (k : Core) (x : CtxId) (v : Ctx) : (k.setCtx x v).acc = k.acc := rfl
@[simp] theorem Core.setCtx_eng0 (k : Core) (x : CtxId) (v : Ctx) : (k.setCtx x v).eng0 = k.eng0 := rfl
@[simp] theorem Core.setCtx_eng1 (k : Core) (x : CtxId) (v : Ctx) : (k.setCtx x v).eng1 = k.eng1 := rfl
@[simp] theorem Core.setCtx_eng2 (k : Core) (x : CtxId) (v : Ctx) : (k.setCtx x v).eng2 = k.eng2 := rfl
@[simp] theorem Core.setCtx_xft (k : Core) (x : CtxId) (v : Ctx) : (k.setCtx x v).xft = k.xft := rfl
@[simp] theorem Core.setCtx_mtx (k : Core) (x : CtxId) (v : Ctx) : (k.setCtx x v).mtx = k.mtx := rfl
@[simp] theorem Core.setCtx_staging (k : Core) (x : CtxId) (v : Ctx) : (k.setCtx x v).staging = k.staging := rfl
@[simp] theorem Core.setCtx_copyq (k : Core) (x : CtxId) (v : Ctx) : (k.setCtx x v).copyq = k.copyq := rfl
@[simp] theorem Core.setCtx_nextTag (k : Core) (x : CtxId) (v : Ctx) : (k.setCtx x v).nextTag = k.nextTag := rfl
@[simp] theorem Core.setCtx_rndOwner (k : Core) (x : CtxId) (v : Ctx) : (k.setCtx x v).rndOwner = k.rndOwner := rfl
@[simp] theorem Core.setCtx_rndCount (k : Core) (x : CtxId) (v : Ctx) : (k.setCtx x v).rndCount = k.rndCount := rfl
@[simp] theorem Core.setCtx_patterns (k : Core) (x : CtxId) (v : Ctx) : (k.setCtx x v).patterns = k.patterns := rfl
@[simp] theorem Core.setCtx_patPend (k : Core) (x : CtxId) (v : Ctx) : (k.setCtx x v).patPend = k.patPend := rfl
@[simp] theorem Core.setCtx_imem (k : Core) (x : CtxId) (v : Ctx) : (k.setCtx x v).imem = k.imem := rfl
@[simp] theorem Core.setCtx_imap (k : Core) (x : CtxId) (v : Ctx) : (k.setCtx x v).imap = k.imap := rfl
@[simp] theorem Core.setCtx_imemBad (k : Core) (x : CtxId) (v : Ctx) : (k.setCtx x v).imemBad = k.imemBad := rfl
@[simp] theorem Core.setCtx_resident (k : Core) (x : CtxId) (v : Ctx) : (k.setCtx x v).resident = k.resident := rfl
@[simp] theorem Core.setCtx_mitten (k : Core) (x : CtxId) (v : Ctx) : (k.setCtx x v).mitten = k.mitten := rfl
@[simp] theorem Core.setCtx_mittenDrain (k : Core) (x : CtxId) (v : Ctx) : (k.setCtx x v).mittenDrain = k.mittenDrain := rfl
@[simp] theorem Core.setCtx_inflight (k : Core) (x : CtxId) (v : Ctx) : (k.setCtx x v).inflight = k.inflight := rfl
@[simp] theorem Core.setCtx_accesses (k : Core) (x : CtxId) (v : Ctx) : (k.setCtx x v).accesses = k.accesses := rfl
@[simp] theorem Core.setCtx_nextAcc (k : Core) (x : CtxId) (v : Ctx) : (k.setCtx x v).nextAcc = k.nextAcc := rfl
@[simp] theorem Core.setCtx_copies (k : Core) (x : CtxId) (v : Ctx) : (k.setCtx x v).copies = k.copies := rfl
@[simp] theorem Core.setCtx_walked (k : Core) (x : CtxId) (v : Ctx) : (k.setCtx x v).walked = k.walked := rfl
@[simp] theorem Core.setCtx_recent (k : Core) (x : CtxId) (v : Ctx) : (k.setCtx x v).recent = k.recent := rfl
@[simp] theorem Core.setCtx_sent (k : Core) (x : CtxId) (v : Ctx) : (k.setCtx x v).sent = k.sent := rfl
@[simp] theorem Core.setCtx_freeze (k : Core) (x : CtxId) (v : Ctx) : (k.setCtx x v).freeze = k.freeze := rfl
@[simp] theorem Core.setCtx_record (k : Core) (x : CtxId) (v : Ctx) : (k.setCtx x v).record = k.record := rfl
@[simp] theorem Core.setCtx_perf (k : Core) (x : CtxId) (v : Ctx) : (k.setCtx x v).perf = k.perf := rfl
@[simp] theorem Core.setCtx_pctlState (k : Core) (x : CtxId) (v : Ctx) : (k.setCtx x v).pctlState = k.pctlState := rfl
@[simp] theorem Core.setCtx_pctlArea (k : Core) (x : CtxId) (v : Ctx) : (k.setCtx x v).pctlArea = k.pctlArea := rfl
@[simp] theorem Core.setCtx_pctlImg (k : Core) (x : CtxId) (v : Ctx) : (k.setCtx x v).pctlImg = k.pctlImg := rfl
@[simp] theorem Core.setCtx_pctlForce (k : Core) (x : CtxId) (v : Ctx) : (k.setCtx x v).pctlForce = k.pctlForce := rfl
@[simp] theorem Core.setCtx_restoring (k : Core) (x : CtxId) (v : Ctx) : (k.setCtx x v).restoring = k.restoring := rfl
@[simp] theorem Core.setCtx_noted (k : Core) (x : CtxId) (v : Ctx) : (k.setCtx x v).noted = k.noted := rfl
@[simp] theorem Core.setCtx_xftBehind (k : Core) (x : CtxId) (v : Ctx) : (k.setCtx x v).xftBehind = k.xftBehind := rfl
@[simp] theorem Core.setCtx_heldStores (k : Core) (x : CtxId) (v : Ctx) : (k.setCtx x v).heldStores = k.heldStores := rfl

/-! ### A core under mapCtx -/
@[simp] theorem Core.mapCtx_running (k : Core) (x : CtxId) (f : Ctx → Ctx) : (k.mapCtx x f).running = k.running := rfl
@[simp] theorem Core.mapCtx_cycle (k : Core) (x : CtxId) (f : Ctx → Ctx) : (k.mapCtx x f).cycle = k.cycle := rfl
@[simp] theorem Core.mapCtx_acc (k : Core) (x : CtxId) (f : Ctx → Ctx) : (k.mapCtx x f).acc = k.acc := rfl
@[simp] theorem Core.mapCtx_eng0 (k : Core) (x : CtxId) (f : Ctx → Ctx) : (k.mapCtx x f).eng0 = k.eng0 := rfl
@[simp] theorem Core.mapCtx_eng1 (k : Core) (x : CtxId) (f : Ctx → Ctx) : (k.mapCtx x f).eng1 = k.eng1 := rfl
@[simp] theorem Core.mapCtx_eng2 (k : Core) (x : CtxId) (f : Ctx → Ctx) : (k.mapCtx x f).eng2 = k.eng2 := rfl
@[simp] theorem Core.mapCtx_xft (k : Core) (x : CtxId) (f : Ctx → Ctx) : (k.mapCtx x f).xft = k.xft := rfl
@[simp] theorem Core.mapCtx_mtx (k : Core) (x : CtxId) (f : Ctx → Ctx) : (k.mapCtx x f).mtx = k.mtx := rfl
@[simp] theorem Core.mapCtx_staging (k : Core) (x : CtxId) (f : Ctx → Ctx) : (k.mapCtx x f).staging = k.staging := rfl
@[simp] theorem Core.mapCtx_copyq (k : Core) (x : CtxId) (f : Ctx → Ctx) : (k.mapCtx x f).copyq = k.copyq := rfl
@[simp] theorem Core.mapCtx_nextTag (k : Core) (x : CtxId) (f : Ctx → Ctx) : (k.mapCtx x f).nextTag = k.nextTag := rfl
@[simp] theorem Core.mapCtx_rndOwner (k : Core) (x : CtxId) (f : Ctx → Ctx) : (k.mapCtx x f).rndOwner = k.rndOwner := rfl
@[simp] theorem Core.mapCtx_rndCount (k : Core) (x : CtxId) (f : Ctx → Ctx) : (k.mapCtx x f).rndCount = k.rndCount := rfl
@[simp] theorem Core.mapCtx_patterns (k : Core) (x : CtxId) (f : Ctx → Ctx) : (k.mapCtx x f).patterns = k.patterns := rfl
@[simp] theorem Core.mapCtx_patPend (k : Core) (x : CtxId) (f : Ctx → Ctx) : (k.mapCtx x f).patPend = k.patPend := rfl
@[simp] theorem Core.mapCtx_imem (k : Core) (x : CtxId) (f : Ctx → Ctx) : (k.mapCtx x f).imem = k.imem := rfl
@[simp] theorem Core.mapCtx_imap (k : Core) (x : CtxId) (f : Ctx → Ctx) : (k.mapCtx x f).imap = k.imap := rfl
@[simp] theorem Core.mapCtx_imemBad (k : Core) (x : CtxId) (f : Ctx → Ctx) : (k.mapCtx x f).imemBad = k.imemBad := rfl
@[simp] theorem Core.mapCtx_resident (k : Core) (x : CtxId) (f : Ctx → Ctx) : (k.mapCtx x f).resident = k.resident := rfl
@[simp] theorem Core.mapCtx_mitten (k : Core) (x : CtxId) (f : Ctx → Ctx) : (k.mapCtx x f).mitten = k.mitten := rfl
@[simp] theorem Core.mapCtx_mittenDrain (k : Core) (x : CtxId) (f : Ctx → Ctx) : (k.mapCtx x f).mittenDrain = k.mittenDrain := rfl
@[simp] theorem Core.mapCtx_inflight (k : Core) (x : CtxId) (f : Ctx → Ctx) : (k.mapCtx x f).inflight = k.inflight := rfl
@[simp] theorem Core.mapCtx_accesses (k : Core) (x : CtxId) (f : Ctx → Ctx) : (k.mapCtx x f).accesses = k.accesses := rfl
@[simp] theorem Core.mapCtx_nextAcc (k : Core) (x : CtxId) (f : Ctx → Ctx) : (k.mapCtx x f).nextAcc = k.nextAcc := rfl
@[simp] theorem Core.mapCtx_copies (k : Core) (x : CtxId) (f : Ctx → Ctx) : (k.mapCtx x f).copies = k.copies := rfl
@[simp] theorem Core.mapCtx_walked (k : Core) (x : CtxId) (f : Ctx → Ctx) : (k.mapCtx x f).walked = k.walked := rfl
@[simp] theorem Core.mapCtx_recent (k : Core) (x : CtxId) (f : Ctx → Ctx) : (k.mapCtx x f).recent = k.recent := rfl
@[simp] theorem Core.mapCtx_sent (k : Core) (x : CtxId) (f : Ctx → Ctx) : (k.mapCtx x f).sent = k.sent := rfl
@[simp] theorem Core.mapCtx_freeze (k : Core) (x : CtxId) (f : Ctx → Ctx) : (k.mapCtx x f).freeze = k.freeze := rfl
@[simp] theorem Core.mapCtx_record (k : Core) (x : CtxId) (f : Ctx → Ctx) : (k.mapCtx x f).record = k.record := rfl
@[simp] theorem Core.mapCtx_perf (k : Core) (x : CtxId) (f : Ctx → Ctx) : (k.mapCtx x f).perf = k.perf := rfl
@[simp] theorem Core.mapCtx_pctlState (k : Core) (x : CtxId) (f : Ctx → Ctx) : (k.mapCtx x f).pctlState = k.pctlState := rfl
@[simp] theorem Core.mapCtx_pctlArea (k : Core) (x : CtxId) (f : Ctx → Ctx) : (k.mapCtx x f).pctlArea = k.pctlArea := rfl
@[simp] theorem Core.mapCtx_pctlImg (k : Core) (x : CtxId) (f : Ctx → Ctx) : (k.mapCtx x f).pctlImg = k.pctlImg := rfl
@[simp] theorem Core.mapCtx_pctlForce (k : Core) (x : CtxId) (f : Ctx → Ctx) : (k.mapCtx x f).pctlForce = k.pctlForce := rfl
@[simp] theorem Core.mapCtx_restoring (k : Core) (x : CtxId) (f : Ctx → Ctx) : (k.mapCtx x f).restoring = k.restoring := rfl
@[simp] theorem Core.mapCtx_noted (k : Core) (x : CtxId) (f : Ctx → Ctx) : (k.mapCtx x f).noted = k.noted := rfl
@[simp] theorem Core.mapCtx_xftBehind (k : Core) (x : CtxId) (f : Ctx → Ctx) : (k.mapCtx x f).xftBehind = k.xftBehind := rfl
@[simp] theorem Core.mapCtx_heldStores (k : Core) (x : CtxId) (f : Ctx → Ctx) : (k.mapCtx x f).heldStores = k.heldStores := rfl

/-! ### A core under noteWrite -/
@[simp] theorem Core.noteWrite_ctxs (k : Core) (a n : Nat) : (k.noteWrite a n).ctxs = k.ctxs := rfl
@[simp] theorem Core.noteWrite_running (k : Core) (a n : Nat) : (k.noteWrite a n).running = k.running := rfl
@[simp] theorem Core.noteWrite_cycle (k : Core) (a n : Nat) : (k.noteWrite a n).cycle = k.cycle := rfl
@[simp] theorem Core.noteWrite_acc (k : Core) (a n : Nat) : (k.noteWrite a n).acc = k.acc := rfl
@[simp] theorem Core.noteWrite_eng0 (k : Core) (a n : Nat) : (k.noteWrite a n).eng0 = k.eng0 := rfl
@[simp] theorem Core.noteWrite_eng1 (k : Core) (a n : Nat) : (k.noteWrite a n).eng1 = k.eng1 := rfl
@[simp] theorem Core.noteWrite_eng2 (k : Core) (a n : Nat) : (k.noteWrite a n).eng2 = k.eng2 := rfl
@[simp] theorem Core.noteWrite_staging (k : Core) (a n : Nat) : (k.noteWrite a n).staging = k.staging := rfl
@[simp] theorem Core.noteWrite_nextTag (k : Core) (a n : Nat) : (k.noteWrite a n).nextTag = k.nextTag := rfl
@[simp] theorem Core.noteWrite_rndOwner (k : Core) (a n : Nat) : (k.noteWrite a n).rndOwner = k.rndOwner := rfl
@[simp] theorem Core.noteWrite_rndCount (k : Core) (a n : Nat) : (k.noteWrite a n).rndCount = k.rndCount := rfl
@[simp] theorem Core.noteWrite_patterns (k : Core) (a n : Nat) : (k.noteWrite a n).patterns = k.patterns := rfl
@[simp] theorem Core.noteWrite_patPend (k : Core) (a n : Nat) : (k.noteWrite a n).patPend = k.patPend := rfl
@[simp] theorem Core.noteWrite_imem (k : Core) (a n : Nat) : (k.noteWrite a n).imem = k.imem := rfl
@[simp] theorem Core.noteWrite_imap (k : Core) (a n : Nat) : (k.noteWrite a n).imap = k.imap := rfl
@[simp] theorem Core.noteWrite_imemBad (k : Core) (a n : Nat) : (k.noteWrite a n).imemBad = k.imemBad := rfl
@[simp] theorem Core.noteWrite_resident (k : Core) (a n : Nat) : (k.noteWrite a n).resident = k.resident := rfl
@[simp] theorem Core.noteWrite_mitten (k : Core) (a n : Nat) : (k.noteWrite a n).mitten = k.mitten := rfl
@[simp] theorem Core.noteWrite_mittenDrain (k : Core) (a n : Nat) : (k.noteWrite a n).mittenDrain = k.mittenDrain := rfl
@[simp] theorem Core.noteWrite_inflight (k : Core) (a n : Nat) : (k.noteWrite a n).inflight = k.inflight := rfl
@[simp] theorem Core.noteWrite_accesses (k : Core) (a n : Nat) : (k.noteWrite a n).accesses = k.accesses := rfl
@[simp] theorem Core.noteWrite_nextAcc (k : Core) (a n : Nat) : (k.noteWrite a n).nextAcc = k.nextAcc := rfl
@[simp] theorem Core.noteWrite_copies (k : Core) (a n : Nat) : (k.noteWrite a n).copies = k.copies := rfl
@[simp] theorem Core.noteWrite_walked (k : Core) (a n : Nat) : (k.noteWrite a n).walked = k.walked := rfl
@[simp] theorem Core.noteWrite_recent (k : Core) (a n : Nat) : (k.noteWrite a n).recent = k.recent := rfl
@[simp] theorem Core.noteWrite_sent (k : Core) (a n : Nat) : (k.noteWrite a n).sent = k.sent := rfl
@[simp] theorem Core.noteWrite_freeze (k : Core) (a n : Nat) : (k.noteWrite a n).freeze = k.freeze := rfl
@[simp] theorem Core.noteWrite_record (k : Core) (a n : Nat) : (k.noteWrite a n).record = k.record := rfl
@[simp] theorem Core.noteWrite_perf (k : Core) (a n : Nat) : (k.noteWrite a n).perf = k.perf := rfl
@[simp] theorem Core.noteWrite_pctlState (k : Core) (a n : Nat) : (k.noteWrite a n).pctlState = k.pctlState := rfl
@[simp] theorem Core.noteWrite_pctlArea (k : Core) (a n : Nat) : (k.noteWrite a n).pctlArea = k.pctlArea := rfl
@[simp] theorem Core.noteWrite_pctlImg (k : Core) (a n : Nat) : (k.noteWrite a n).pctlImg = k.pctlImg := rfl
@[simp] theorem Core.noteWrite_pctlForce (k : Core) (a n : Nat) : (k.noteWrite a n).pctlForce = k.pctlForce := rfl
@[simp] theorem Core.noteWrite_restoring (k : Core) (a n : Nat) : (k.noteWrite a n).restoring = k.restoring := rfl
@[simp] theorem Core.noteWrite_noted (k : Core) (a n : Nat) : (k.noteWrite a n).noted = k.noted := rfl
@[simp] theorem Core.noteWrite_xftBehind (k : Core) (a n : Nat) : (k.noteWrite a n).xftBehind = k.xftBehind := rfl
@[simp] theorem Core.noteWrite_heldStores (k : Core) (a n : Nat) : (k.noteWrite a n).heldStores = k.heldStores := rfl
@[simp] theorem Core.ctx_noteWrite (k : Core) (a n : Nat) (y : CtxId) : (k.noteWrite a n).ctx y = k.ctx y := rfl

/-! ### A core under count -/
@[simp] theorem Core.count_ctxs (k : Core) (i n : Nat) : (k.count i n).ctxs = k.ctxs := rfl
@[simp] theorem Core.count_running (k : Core) (i n : Nat) : (k.count i n).running = k.running := rfl
@[simp] theorem Core.count_cycle (k : Core) (i n : Nat) : (k.count i n).cycle = k.cycle := rfl
@[simp] theorem Core.count_acc (k : Core) (i n : Nat) : (k.count i n).acc = k.acc := rfl
@[simp] theorem Core.count_eng0 (k : Core) (i n : Nat) : (k.count i n).eng0 = k.eng0 := rfl
@[simp] theorem Core.count_eng1 (k : Core) (i n : Nat) : (k.count i n).eng1 = k.eng1 := rfl
@[simp] theorem Core.count_eng2 (k : Core) (i n : Nat) : (k.count i n).eng2 = k.eng2 := rfl
@[simp] theorem Core.count_xft (k : Core) (i n : Nat) : (k.count i n).xft = k.xft := rfl
@[simp] theorem Core.count_mtx (k : Core) (i n : Nat) : (k.count i n).mtx = k.mtx := rfl
@[simp] theorem Core.count_staging (k : Core) (i n : Nat) : (k.count i n).staging = k.staging := rfl
@[simp] theorem Core.count_copyq (k : Core) (i n : Nat) : (k.count i n).copyq = k.copyq := rfl
@[simp] theorem Core.count_nextTag (k : Core) (i n : Nat) : (k.count i n).nextTag = k.nextTag := rfl
@[simp] theorem Core.count_rndOwner (k : Core) (i n : Nat) : (k.count i n).rndOwner = k.rndOwner := rfl
@[simp] theorem Core.count_rndCount (k : Core) (i n : Nat) : (k.count i n).rndCount = k.rndCount := rfl
@[simp] theorem Core.count_patterns (k : Core) (i n : Nat) : (k.count i n).patterns = k.patterns := rfl
@[simp] theorem Core.count_patPend (k : Core) (i n : Nat) : (k.count i n).patPend = k.patPend := rfl
@[simp] theorem Core.count_imem (k : Core) (i n : Nat) : (k.count i n).imem = k.imem := rfl
@[simp] theorem Core.count_imap (k : Core) (i n : Nat) : (k.count i n).imap = k.imap := rfl
@[simp] theorem Core.count_imemBad (k : Core) (i n : Nat) : (k.count i n).imemBad = k.imemBad := rfl
@[simp] theorem Core.count_resident (k : Core) (i n : Nat) : (k.count i n).resident = k.resident := rfl
@[simp] theorem Core.count_mitten (k : Core) (i n : Nat) : (k.count i n).mitten = k.mitten := rfl
@[simp] theorem Core.count_mittenDrain (k : Core) (i n : Nat) : (k.count i n).mittenDrain = k.mittenDrain := rfl
@[simp] theorem Core.count_inflight (k : Core) (i n : Nat) : (k.count i n).inflight = k.inflight := rfl
@[simp] theorem Core.count_accesses (k : Core) (i n : Nat) : (k.count i n).accesses = k.accesses := rfl
@[simp] theorem Core.count_nextAcc (k : Core) (i n : Nat) : (k.count i n).nextAcc = k.nextAcc := rfl
@[simp] theorem Core.count_copies (k : Core) (i n : Nat) : (k.count i n).copies = k.copies := rfl
@[simp] theorem Core.count_walked (k : Core) (i n : Nat) : (k.count i n).walked = k.walked := rfl
@[simp] theorem Core.count_recent (k : Core) (i n : Nat) : (k.count i n).recent = k.recent := rfl
@[simp] theorem Core.count_sent (k : Core) (i n : Nat) : (k.count i n).sent = k.sent := rfl
@[simp] theorem Core.count_freeze (k : Core) (i n : Nat) : (k.count i n).freeze = k.freeze := rfl
@[simp] theorem Core.count_record (k : Core) (i n : Nat) : (k.count i n).record = k.record := rfl
@[simp] theorem Core.count_pctlState (k : Core) (i n : Nat) : (k.count i n).pctlState = k.pctlState := rfl
@[simp] theorem Core.count_pctlArea (k : Core) (i n : Nat) : (k.count i n).pctlArea = k.pctlArea := rfl
@[simp] theorem Core.count_pctlImg (k : Core) (i n : Nat) : (k.count i n).pctlImg = k.pctlImg := rfl
@[simp] theorem Core.count_pctlForce (k : Core) (i n : Nat) : (k.count i n).pctlForce = k.pctlForce := rfl
@[simp] theorem Core.count_restoring (k : Core) (i n : Nat) : (k.count i n).restoring = k.restoring := rfl
@[simp] theorem Core.count_noted (k : Core) (i n : Nat) : (k.count i n).noted = k.noted := rfl
@[simp] theorem Core.count_xftBehind (k : Core) (i n : Nat) : (k.count i n).xftBehind = k.xftBehind := rfl
@[simp] theorem Core.count_heldStores (k : Core) (i n : Nat) : (k.count i n).heldStores = k.heldStores := rfl
@[simp] theorem Core.ctx_count (k : Core) (i n : Nat) (y : CtxId) : (k.count i n).ctx y = k.ctx y := rfl

end Sys2Proof.Machine
end

