-- ==== Sys2Proof/Laws/Memory.lean ====
section
/-!
SUPPORT. Sys2Proof/Laws/Memory.lean: reading after writing, and that every operation over memory keeps its canonical form.
-/
namespace Sys2Proof.Machine

/-- Every listed address is above `a`. -/
def Memory.above (a : Nat) (m : List Host.Cell) : Prop := ∀ c ∈ m, a < c.1

theorem Memory.sorted_cons (a : Nat) (w : Byte) (t : List Host.Cell) :
    Memory.sorted ((a, w) :: t) = true ↔ Memory.above a t ∧ Memory.sorted t = true := by
  induction t generalizing a w with
  | nil => simp [Memory.sorted, Memory.above]
  | cons c t ih =>
    obtain ⟨b, v⟩ := c
    simp only [Memory.sorted, Bool.and_eq_true, decide_eq_true_eq]
    constructor
    · rintro ⟨hab, hs⟩
      refine ⟨?_, hs⟩
      intro c hc
      rcases List.mem_cons.mp hc with rfl | hc
      · exact hab
      · exact Nat.lt_trans hab (((ih b v).mp hs).1 c hc)
    · rintro ⟨h, hs⟩
      exact ⟨h (b, v) (List.mem_cons_self ..), hs⟩

theorem Memory.wf_nil : Memory.wf [] = true := rfl

theorem Memory.wf_cons (a : Nat) (w : Byte) (t : List Host.Cell) :
    Memory.wf ((a, w) :: t) = true ↔ Memory.above a t ∧ w ≠ blank ∧ Memory.wf t = true := by
  simp only [Memory.wf, Bool.and_eq_true, Memory.sorted_cons, List.all_cons, bne_iff_ne, ne_eq]
  constructor
  · rintro ⟨⟨h1, h2⟩, h3, h4⟩; exact ⟨h1, h3, h2, h4⟩
  · rintro ⟨h1, h3, h2, h4⟩; exact ⟨⟨h1, h2⟩, h3, h4⟩

/-- Writing lists no address but the written one and those listed before. -/
theorem Memory.mem_set {m : List Host.Cell} {a : Nat} {x : Byte} {c : Host.Cell} (h : c ∈ Memory.set m a x) : c = (a, x) ∨ c ∈ m := by
  induction m with
  | nil => unfold Memory.set at h; split at h <;> simp_all
  | cons d t ih =>
    obtain ⟨b, w⟩ := d
    unfold Memory.set at h
    split at h
    · split at h
      · exact .inr h
      · rcases List.mem_cons.mp h with rfl | h
        · exact .inl rfl
        · exact .inr h
    · split at h
      · split at h
        · exact .inr (List.mem_cons_of_mem _ h)
        · rcases List.mem_cons.mp h with rfl | h
          · exact .inl rfl
          · exact .inr (List.mem_cons_of_mem _ h)
      · rcases List.mem_cons.mp h with rfl | h
        · exact .inr (List.mem_cons_self ..)
        · rcases ih h with h | h
          · exact .inl h
          · exact .inr (List.mem_cons_of_mem _ h)

/-- A write of one byte keeps the canonical form. -/
theorem Memory.wf_set {m : List Host.Cell} (a : Nat) (x : Byte) (h : Memory.wf m = true) : Memory.wf (Memory.set m a x) = true := by
  induction m with
  | nil => unfold Memory.set; split <;> simp_all [Memory.wf, Memory.sorted]
  | cons d t ih =>
    obtain ⟨b, w⟩ := d
    have ⟨h1, h2, h3⟩ := (Memory.wf_cons b w t).mp h
    unfold Memory.set
    split
    · next hlt =>
      split
      · exact h
      · next hx =>
        refine (Memory.wf_cons ..).mpr ⟨?_, hx, h⟩
        intro c hc
        rcases List.mem_cons.mp hc with rfl | hc
        · exact hlt
        · exact Nat.lt_trans hlt (h1 c hc)
    · split
      · next heq =>
        split
        · exact h3
        · next hx => exact (Memory.wf_cons ..).mpr ⟨heq ▸ h1, hx, h3⟩
      · refine (Memory.wf_cons ..).mpr ⟨?_, h2, ih h3⟩
        intro c hc
        rcases Memory.mem_set hc with rfl | hc
        · show b < a; omega
        · exact h1 c hc

theorem Memory.get_above {m : List Host.Cell} {a : Nat} (h : Memory.above a m) : Memory.get m a = blank := by
  cases m with
  | nil => rfl
  | cons d t =>
    obtain ⟨b, w⟩ := d
    have : a < b := h (b, w) (List.mem_cons_self ..)
    unfold Memory.get
    rw [if_neg (by omega), if_pos this]

/-- One byte read after one byte written. -/
theorem Memory.get_set {m : List Host.Cell} (a : Nat) (x : Byte) (h : Memory.wf m = true) (b : Nat) :
    Memory.get (Memory.set m a x) b = if b = a then x else Memory.get m b := by
  induction m with
  | nil =>
    unfold Memory.set
    split
    · next hx => simp [Memory.get, hx]
    · simp [Memory.get]
  | cons d t ih =>
    obtain ⟨e, w⟩ := d
    have ⟨h1, h2, h3⟩ := (Memory.wf_cons e w t).mp h
    unfold Memory.set
    split
    · next hlt =>
      split
      · next hx =>
        split
        · next hb => subst hb hx; simp [Memory.get, hlt, Nat.ne_of_lt hlt]
        · rfl
      · by_cases hb : b = a
        · simp [Memory.get, hb]
        · rw [if_neg hb, Memory.get, if_neg hb]
          split
          · next hba => simp [Memory.get, show b ≠ e by omega, show b < e by omega]
          · rfl
    · split
      · next heq =>
        subst heq
        split
        · next hx =>
          split
          · next hb => subst hb hx; exact Memory.get_above h1
          · next hb =>
            by_cases hlt : b < a
            · have : Memory.above b t := fun c hc => Nat.lt_trans hlt (h1 c hc)
              simp [Memory.get, hb, hlt, Memory.get_above this]
            · simp [Memory.get, hb, hlt]
        · by_cases hb : b = a
          · simp [Memory.get, hb]
          · simp [Memory.get, hb]
      · simp only [Memory.get, ih h3]
        split
        · next hb => rw [if_neg (by omega)]
        · split
          · next hbe => rw [if_neg (by omega)]
          · rfl

theorem Memory.get_set_self {m : List Host.Cell} (a : Nat) (x : Byte) (h : Memory.wf m = true) : Memory.get (Memory.set m a x) a = x := by
  rw [Memory.get_set a x h, if_pos rfl]
theorem Memory.get_set_ne {m : List Host.Cell} {a b : Nat} (x : Byte) (h : Memory.wf m = true) (hb : b ≠ a) :
    Memory.get (Memory.set m a x) b = Memory.get m b := by rw [Memory.get_set a x h, if_neg hb]

theorem Memory.wf_setBytes {m : List Host.Cell} (a : Nat) (l : List Byte) (h : Memory.wf m = true) : Memory.wf (Memory.setBytes m a l) = true := by
  induction l generalizing m a with
  | nil => exact h
  | cons x t ih => exact ih _ (Memory.wf_set a x h)
theorem Memory.wf_write {m : List Host.Cell} (a n v : Nat) (h : Memory.wf m = true) : Memory.wf (Memory.write m a n v) = true :=
  Memory.wf_setBytes _ _ h

/-- One byte read after a run of bytes written. -/
theorem Memory.get_setBytes {m : List Host.Cell} (a : Nat) (l : List Byte) (h : Memory.wf m = true) (b : Nat) :
    Memory.get (Memory.setBytes m a l) b = if a ≤ b ∧ b < a + l.length then l.getD (b - a) 0 else Memory.get m b := by
  induction l generalizing m a with
  | nil => rw [Memory.setBytes, if_neg (by simp only [List.length_nil]; omega)]
  | cons x t ih =>
    rw [Memory.setBytes, ih _ (Memory.wf_set a x h), Memory.get_set a x h]
    by_cases hb : b = a
    · subst hb
      rw [if_neg (by omega), if_pos rfl, if_pos (by simp)]
      simp
    · rw [if_neg hb]
      by_cases hr : a + 1 ≤ b ∧ b < a + 1 + t.length
      · rw [if_pos hr, if_pos (by simp; omega), show b - a = b - (a + 1) + 1 by omega, List.getD_cons_succ]
      · rw [if_neg hr, if_neg (by simp; omega)]
theorem Memory.get_setBytes_out {m : List Host.Cell} {a b : Nat} {l : List Byte} (h : Memory.wf m = true) (hb : b < a ∨ a + l.length ≤ b) :
    Memory.get (Memory.setBytes m a l) b = Memory.get m b := by
  rw [Memory.get_setBytes a l h, if_neg (by omega)]

theorem Memory.above_filter {m : List Host.Cell} {a : Nat} (p : Host.Cell → Bool) (h : Memory.above a m) : Memory.above a (m.filter p) :=
  fun c hc => h c (List.mem_filter.mp hc).1
/-- Leaving entries out keeps the canonical form. -/
theorem Memory.wf_filter {m : List Host.Cell} (p : Host.Cell → Bool) (h : Memory.wf m = true) : Memory.wf (m.filter p) = true := by
  induction m with
  | nil => rfl
  | cons d t ih =>
    obtain ⟨b, w⟩ := d
    have ⟨h1, h2, h3⟩ := (Memory.wf_cons b w t).mp h
    rw [List.filter_cons]
    split
    · exact (Memory.wf_cons ..).mpr ⟨Memory.above_filter p h1, h2, ih h3⟩
    · exact ih h3

/-- Memories in canonical form that read alike are equal data. -/
theorem Memory.ext {m n : List Host.Cell} (hm : Memory.wf m = true) (hn : Memory.wf n = true) (h : ∀ a, Memory.get m a = Memory.get n a) : m = n := by
  induction m generalizing n with
  | nil =>
    cases n with
    | nil => rfl
    | cons d t =>
      obtain ⟨b, w⟩ := d
      have := h b
      simp only [Memory.get, if_true] at this
      exact absurd this.symm ((Memory.wf_cons ..).mp hn).2.1
  | cons d t ih =>
    obtain ⟨b, w⟩ := d
    have ⟨h1, h2, h3⟩ := (Memory.wf_cons b w t).mp hm
    cases n with
    | nil =>
      have := h b
      simp only [Memory.get, if_true] at this
      exact absurd this h2
    | cons e u =>
      obtain ⟨c, v⟩ := e
      have ⟨g1, g2, g3⟩ := (Memory.wf_cons c v u).mp hn
      have hbc : b = c := by
        have e1 := h b
        have e2 := h c
        simp only [Memory.get, if_true] at e1 e2
        by_cases hlt : b < c
        · rw [if_neg (by omega), if_pos hlt] at e1; exact absurd e1 h2
        · by_cases hgt : c < b
          · rw [if_neg (by omega), if_pos hgt] at e2; exact absurd e2.symm g2
          · omega
      subst hbc
      have hwv : w = v := by have e1 := h b; simpa [Memory.get] using e1
      subst hwv
      rw [ih h3 g3]
      intro a
      have ha := h a
      simp only [Memory.get] at ha
      by_cases hab : a = b
      · subst hab; rw [Memory.get_above h1, Memory.get_above g1]
      · simp only [if_neg hab] at ha
        by_cases hl : a < b
        · rw [Memory.get_above fun c hc => Nat.lt_trans hl (h1 c hc), Memory.get_above fun c hc => Nat.lt_trans hl (g1 c hc)]
        · simpa only [if_neg hl] using ha

/-! ### The state's memory operations -/

@[simp] theorem State.spadWrite_mem (s : State) (c : CoreId) (a : Nat) (b : List Byte) :
    (s.spadWrite c a b).mem = Memory.setBytes s.mem (spadBase c + a) b := rfl
/-- A write at a physical address writes those bytes, in a scratchpad or not. -/
@[simp] theorem State.memWrite_mem (s : State) (pa : Nat) (b : List Byte) : (s.memWrite pa b).mem = Memory.setBytes s.mem pa b := by
  unfold State.memWrite
  split
  · next h =>
    have e : spadBase ⟨(pa - 0x010000000000) / 0x200000, h.2⟩ + (pa - 0x010000000000) % 0x200000 = pa := by
      show 0x010000000000 + (pa - 0x010000000000) / 0x200000 * 0x200000 + (pa - 0x010000000000) % 0x200000 = pa
      omega
    rw [State.spadWrite_mem, e]
  · rfl
@[simp] theorem State.memCopy_mem (s : State) (dst src n : Nat) : (s.memCopy dst src n).mem = Memory.setBytes s.mem dst (Memory.bytes s.mem src n) :=
  State.memWrite_mem ..
/-- The memory of a state is a write away from another's. -/
theorem State.wf_spadWrite {s : State} (c : CoreId) (a : Nat) (b : List Byte) (h : Memory.wf s.mem = true) : Memory.wf (s.spadWrite c a b).mem = true :=
  Memory.wf_setBytes _ _ h
theorem State.wf_memWrite {s : State} (pa : Nat) (b : List Byte) (h : Memory.wf s.mem = true) : Memory.wf (s.memWrite pa b).mem = true := by
  rw [State.memWrite_mem]; exact Memory.wf_setBytes _ _ h
theorem State.wf_memCopy {s : State} (dst src n : Nat) (h : Memory.wf s.mem = true) : Memory.wf (s.memCopy dst src n).mem = true :=
  State.wf_memWrite _ _ h

end Sys2Proof.Machine
end

