-- ==== Sys2Proof/Laws/Ops.lean ====
section
/-!
SUPPORT. Sys2Proof/Laws/Ops.lean: what the shared operations can do, said once: how a slot ends, what a write to a register adds, and what waking contexts,
raising clocks, writing memory and updating barriers leave alone.
-/
namespace Sys2Proof.Machine

/-! ### How a slot ends -/

theorem runSlot_off {g : Guard} {s : State} (f : State → Except Flt State) (h : s.guard g = false) : runSlot g s f = .next s := by simp [runSlot, h]
theorem runSlot_ok {g : Guard} {s t : State} {f : State → Except Flt State} (h : s.guard g = true) (e : f s = .ok t) : runSlot g s f = .next t := by
  simp [runSlot, h, e]
theorem runSlot_error {g : Guard} {s : State} {f : State → Except Flt State} {x : Flt} (h : s.guard g = true) (e : f s = .error x) :
    runSlot g s f = .next (s.slotStop x) := by simp [runSlot, h, e]
/-- A slot that stops for anything but a walk faults. -/
theorem State.slotStop_fault (s : State) {x : Flt} (h : x.code ≠ Code.needWalk) : s.slotStop x = s.slotFault x := by simp [State.slotStop, h]
/-- A scalar slot is nothing, its effect, or its fault. -/
theorem runSlot_cases {g : Guard} {s t : State} {f : State → Except Flt State} (h : runSlot g s f = .next t) :
    (s.guard g = false ∧ t = s) ∨ (s.guard g = true ∧ f s = .ok t) ∨ ∃ x, s.guard g = true ∧ f s = .error x ∧ t = s.slotStop x := by
  unfold runSlot at h
  cases hg : s.guard g
  · rw [hg] at h; exact .inl ⟨rfl, by injection h with h; exact h.symm⟩
  · rw [hg] at h
    cases hf : f s with
    | ok u => rw [hf] at h; injection h with h; exact .inr (.inl ⟨rfl, by rw [h]⟩)
    | error x => rw [hf] at h; injection h with h; exact .inr (.inr ⟨x, rfl, rfl, h.symm⟩)
theorem runSlot_next (g : Guard) (s : State) (f : State → Except Flt State) : ∃ t, runSlot g s f = .next t := by
  unfold runSlot; split
  · split <;> exact ⟨_, rfl⟩
  · exact ⟨_, rfl⟩
theorem runPopSlot_ok {g : Guard} {n : Nat} {s t : State} {f : State → Except Flt State} (h : s.guard g = true) (e : f s = .ok t) :
    runPopSlot g n s f = .next (t.addPops n) := by simp [runPopSlot, h, e]
theorem runPopSlot_error {g : Guard} {n : Nat} {s : State} {f : State → Except Flt State} {x : Flt} (h : s.guard g = true) (e : f s = .error x) :
    runPopSlot g n s f = .next (s.slotFault x) := by simp [runPopSlot, h, e]
theorem runPopSlot_next (g : Guard) (n : Nat) (s : State) (f : State → Except Flt State) : ∃ t, runPopSlot g n s f = .next t := by
  unfold runPopSlot; split
  · split <;> exact ⟨_, rfl⟩
  · exact ⟨_, rfl⟩
theorem laneSlot_ok {n : Nat} {s t : State} {f : State → Except Flt State} (e : f s = .ok t) : laneSlot n s f = .next (t.addPops n) := by simp [laneSlot, e]
theorem laneSlot_next (n : Nat) (s : State) (f : State → Except Flt State) : ∃ t, laneSlot n s f = .next t := by unfold laneSlot; split <;> exact ⟨_, rfl⟩
theorem plainSlot_on {g : Guard} {s : State} (f : State → State) (h : s.guard g = true) : plainSlot g s f = .next (f s) := by simp [plainSlot, h]
theorem plainSlot_off {g : Guard} {s : State} (f : State → State) (h : s.guard g = false) : plainSlot g s f = .next s := by simp [plainSlot, h]
@[simp] theorem require_true (c : Nat) (a : Word) : require true c a = .ok () := rfl
@[simp] theorem require_false (c : Nat) (a : Word) : require false c a = .error ⟨c, a, 0⟩ := rfl

/-! ### Results -/

@[simp] theorem State.writeS_zero (s : State) (bound : Nat) (v : Word) : s.writeS 0 bound v = s := rfl
theorem State.writeS_ne {s : State} {d : SReg} (h : d ≠ 0) (bound : Nat) (v : Word) : s.writeS d bound v = s.writeDest (.s d) bound (v.setWidth 2048) := by
  simp [State.writeS, h]

@[simp] theorem State.writeDest_traps (s : State) (d : Dest) (bound : Nat) (v : VWord) : (s.writeDest d bound v).traps = s.traps := rfl
@[simp] theorem State.writeDest_die0 (s : State) (d : Dest) (bound : Nat) (v : VWord) : (s.writeDest d bound v).die0 = s.die0 := rfl
@[simp] theorem State.writeDest_die1 (s : State) (d : Dest) (bound : Nat) (v : VWord) : (s.writeDest d bound v).die1 = s.die1 := rfl
@[simp] theorem State.writeDest_pkg (s : State) (d : Dest) (bound : Nat) (v : VWord) : (s.writeDest d bound v).pkg = s.pkg := rfl
@[simp] theorem State.writeDest_mem (s : State) (d : Dest) (bound : Nat) (v : VWord) : (s.writeDest d bound v).mem = s.mem := rfl
@[simp] theorem State.writeDest_poison (s : State) (d : Dest) (bound : Nat) (v : VWord) : (s.writeDest d bound v).poison = s.poison := rfl
@[simp] theorem State.writeDest_watch (s : State) (d : Dest) (bound : Nat) (v : VWord) : (s.writeDest d bound v).watch = s.watch := rfl
@[simp] theorem State.writeDest_flags (s : State) (d : Dest) (bound : Nat) (v : VWord) : (s.writeDest d bound v).flags = s.flags := rfl
@[simp] theorem State.writeDest_updates (s : State) (d : Dest) (bound : Nat) (v : VWord) : (s.writeDest d bound v).updates = s.updates := rfl
@[simp] theorem State.writeDest_issue (s : State) (d : Dest) (bound : Nat) (v : VWord) : (s.writeDest d bound v).issue = s.issue := rfl
@[simp] theorem State.writeDest_tick (s : State) (d : Dest) (bound : Nat) (v : VWord) : (s.writeDest d bound v).tick = s.tick := rfl
@[simp] theorem State.writeDest_agenda (s : State) (d : Dest) (bound : Nat) (v : VWord) : (s.writeDest d bound v).agenda = s.agenda := rfl
@[simp] theorem State.writeDest_frontWords (s : State) (d : Dest) (bound : Nat) (v : VWord) : (s.writeDest d bound v).frontWords = s.frontWords := rfl
@[simp] theorem State.writeDest_hart (s : State) (d : Dest) (bound : Nat) (v : VWord) : (s.writeDest d bound v).hart = s.hart := rfl
@[simp] theorem State.writeDest_rota (s : State) (d : Dest) (bound : Nat) (v : VWord) : (s.writeDest d bound v).rota = s.rota := rfl
@[simp] theorem State.writeDest_out (s : State) (d : Dest) (bound : Nat) (v : VWord) : (s.writeDest d bound v).out = s.out := rfl
@[simp] theorem State.writeS_traps (s : State) (d : SReg) (bound : Nat) (v : Word) : (s.writeS d bound v).traps = s.traps := by unfold State.writeS; split <;> rfl
@[simp] theorem State.writeS_die0 (s : State) (d : SReg) (bound : Nat) (v : Word) : (s.writeS d bound v).die0 = s.die0 := by unfold State.writeS; split <;> rfl
@[simp] theorem State.writeS_die1 (s : State) (d : SReg) (bound : Nat) (v : Word) : (s.writeS d bound v).die1 = s.die1 := by unfold State.writeS; split <;> rfl
@[simp] theorem State.writeS_pkg (s : State) (d : SReg) (bound : Nat) (v : Word) : (s.writeS d bound v).pkg = s.pkg := by unfold State.writeS; split <;> rfl
@[simp] theorem State.writeS_mem (s : State) (d : SReg) (bound : Nat) (v : Word) : (s.writeS d bound v).mem = s.mem := by unfold State.writeS; split <;> rfl
@[simp] theorem State.writeS_poison (s : State) (d : SReg) (bound : Nat) (v : Word) : (s.writeS d bound v).poison = s.poison := by unfold State.writeS; split <;> rfl
@[simp] theorem State.writeS_watch (s : State) (d : SReg) (bound : Nat) (v : Word) : (s.writeS d bound v).watch = s.watch := by unfold State.writeS; split <;> rfl
@[simp] theorem State.writeS_flags (s : State) (d : SReg) (bound : Nat) (v : Word) : (s.writeS d bound v).flags = s.flags := by unfold State.writeS; split <;> rfl
@[simp] theorem State.writeS_updates (s : State) (d : SReg) (bound : Nat) (v : Word) : (s.writeS d bound v).updates = s.updates := by unfold State.writeS; split <;> rfl
@[simp] theorem State.writeS_issue (s : State) (d : SReg) (bound : Nat) (v : Word) : (s.writeS d bound v).issue = s.issue := by unfold State.writeS; split <;> rfl
@[simp] theorem State.writeS_tick (s : State) (d : SReg) (bound : Nat) (v : Word) : (s.writeS d bound v).tick = s.tick := by unfold State.writeS; split <;> rfl
@[simp] theorem State.writeS_agenda (s : State) (d : SReg) (bound : Nat) (v : Word) : (s.writeS d bound v).agenda = s.agenda := by unfold State.writeS; split <;> rfl
@[simp] theorem State.writeS_frontWords (s : State) (d : SReg) (bound : Nat) (v : Word) : (s.writeS d bound v).frontWords = s.frontWords := by unfold State.writeS; split <;> rfl
@[simp] theorem State.writeS_hart (s : State) (d : SReg) (bound : Nat) (v : Word) : (s.writeS d bound v).hart = s.hart := by unfold State.writeS; split <;> rfl
@[simp] theorem State.writeS_rota (s : State) (d : SReg) (bound : Nat) (v : Word) : (s.writeS d bound v).rota = s.rota := by unfold State.writeS; split <;> rfl
@[simp] theorem State.writeS_out (s : State) (d : SReg) (bound : Nat) (v : Word) : (s.writeS d bound v).out = s.out := by unfold State.writeS; split <;> rfl
@[simp] theorem State.writeP_traps (s : State) (d : PReg) (bound : Nat) (v : Word) : (s.writeP d bound v).traps = s.traps := rfl
@[simp] theorem State.writeP_die0 (s : State) (d : PReg) (bound : Nat) (v : Word) : (s.writeP d bound v).die0 = s.die0 := rfl
@[simp] theorem State.writeP_die1 (s : State) (d : PReg) (bound : Nat) (v : Word) : (s.writeP d bound v).die1 = s.die1 := rfl
@[simp] theorem State.writeP_pkg (s : State) (d : PReg) (bound : Nat) (v : Word) : (s.writeP d bound v).pkg = s.pkg := rfl
@[simp] theorem State.writeP_mem (s : State) (d : PReg) (bound : Nat) (v : Word) : (s.writeP d bound v).mem = s.mem := rfl
@[simp] theorem State.writeP_poison (s : State) (d : PReg) (bound : Nat) (v : Word) : (s.writeP d bound v).poison = s.poison := rfl
@[simp] theorem State.writeP_watch (s : State) (d : PReg) (bound : Nat) (v : Word) : (s.writeP d bound v).watch = s.watch := rfl
@[simp] theorem State.writeP_flags (s : State) (d : PReg) (bound : Nat) (v : Word) : (s.writeP d bound v).flags = s.flags := rfl
@[simp] theorem State.writeP_updates (s : State) (d : PReg) (bound : Nat) (v : Word) : (s.writeP d bound v).updates = s.updates := rfl
@[simp] theorem State.writeP_issue (s : State) (d : PReg) (bound : Nat) (v : Word) : (s.writeP d bound v).issue = s.issue := rfl
@[simp] theorem State.writeP_tick (s : State) (d : PReg) (bound : Nat) (v : Word) : (s.writeP d bound v).tick = s.tick := rfl
@[simp] theorem State.writeP_agenda (s : State) (d : PReg) (bound : Nat) (v : Word) : (s.writeP d bound v).agenda = s.agenda := rfl
@[simp] theorem State.writeP_frontWords (s : State) (d : PReg) (bound : Nat) (v : Word) : (s.writeP d bound v).frontWords = s.frontWords := rfl
@[simp] theorem State.writeP_hart (s : State) (d : PReg) (bound : Nat) (v : Word) : (s.writeP d bound v).hart = s.hart := rfl
@[simp] theorem State.writeP_rota (s : State) (d : PReg) (bound : Nat) (v : Word) : (s.writeP d bound v).rota = s.rota := rfl
@[simp] theorem State.writeP_out (s : State) (d : PReg) (bound : Nat) (v : Word) : (s.writeP d bound v).out = s.out := rfl
@[simp] theorem State.writeV_traps (s : State) (d : VNum) (bound : Nat) (v : VWord) : (s.writeV d bound v).traps = s.traps := rfl
@[simp] theorem State.writeV_die0 (s : State) (d : VNum) (bound : Nat) (v : VWord) : (s.writeV d bound v).die0 = s.die0 := rfl
@[simp] theorem State.writeV_die1 (s : State) (d : VNum) (bound : Nat) (v : VWord) : (s.writeV d bound v).die1 = s.die1 := rfl
@[simp] theorem State.writeV_pkg (s : State) (d : VNum) (bound : Nat) (v : VWord) : (s.writeV d bound v).pkg = s.pkg := rfl
@[simp] theorem State.writeV_mem (s : State) (d : VNum) (bound : Nat) (v : VWord) : (s.writeV d bound v).mem = s.mem := rfl
@[simp] theorem State.writeV_poison (s : State) (d : VNum) (bound : Nat) (v : VWord) : (s.writeV d bound v).poison = s.poison := rfl
@[simp] theorem State.writeV_watch (s : State) (d : VNum) (bound : Nat) (v : VWord) : (s.writeV d bound v).watch = s.watch := rfl
@[simp] theorem State.writeV_flags (s : State) (d : VNum) (bound : Nat) (v : VWord) : (s.writeV d bound v).flags = s.flags := rfl
@[simp] theorem State.writeV_updates (s : State) (d : VNum) (bound : Nat) (v : VWord) : (s.writeV d bound v).updates = s.updates := rfl
@[simp] theorem State.writeV_issue (s : State) (d : VNum) (bound : Nat) (v : VWord) : (s.writeV d bound v).issue = s.issue := rfl
@[simp] theorem State.writeV_tick (s : State) (d : VNum) (bound : Nat) (v : VWord) : (s.writeV d bound v).tick = s.tick := rfl
@[simp] theorem State.writeV_agenda (s : State) (d : VNum) (bound : Nat) (v : VWord) : (s.writeV d bound v).agenda = s.agenda := rfl
@[simp] theorem State.writeV_frontWords (s : State) (d : VNum) (bound : Nat) (v : VWord) : (s.writeV d bound v).frontWords = s.frontWords := rfl
@[simp] theorem State.writeV_hart (s : State) (d : VNum) (bound : Nat) (v : VWord) : (s.writeV d bound v).hart = s.hart := rfl
@[simp] theorem State.writeV_rota (s : State) (d : VNum) (bound : Nat) (v : VWord) : (s.writeV d bound v).rota = s.rota := rfl
@[simp] theorem State.writeV_out (s : State) (d : VNum) (bound : Nat) (v : VWord) : (s.writeV d bound v).out = s.out := rfl
@[simp] theorem State.addPops_cores (s : State) (n : Nat) : (s.addPops n).cores = s.cores := rfl
@[simp] theorem State.addPops_traps (s : State) (n : Nat) : (s.addPops n).traps = s.traps := rfl
@[simp] theorem State.addPops_die0 (s : State) (n : Nat) : (s.addPops n).die0 = s.die0 := rfl
@[simp] theorem State.addPops_die1 (s : State) (n : Nat) : (s.addPops n).die1 = s.die1 := rfl
@[simp] theorem State.addPops_pkg (s : State) (n : Nat) : (s.addPops n).pkg = s.pkg := rfl
@[simp] theorem State.addPops_mem (s : State) (n : Nat) : (s.addPops n).mem = s.mem := rfl
@[simp] theorem State.addPops_poison (s : State) (n : Nat) : (s.addPops n).poison = s.poison := rfl
@[simp] theorem State.addPops_watch (s : State) (n : Nat) : (s.addPops n).watch = s.watch := rfl
@[simp] theorem State.addPops_flags (s : State) (n : Nat) : (s.addPops n).flags = s.flags := rfl
@[simp] theorem State.addPops_updates (s : State) (n : Nat) : (s.addPops n).updates = s.updates := rfl
@[simp] theorem State.addPops_tick (s : State) (n : Nat) : (s.addPops n).tick = s.tick := rfl
@[simp] theorem State.addPops_agenda (s : State) (n : Nat) : (s.addPops n).agenda = s.agenda := rfl
@[simp] theorem State.addPops_frontWords (s : State) (n : Nat) : (s.addPops n).frontWords = s.frontWords := rfl
@[simp] theorem State.addPops_hart (s : State) (n : Nat) : (s.addPops n).hart = s.hart := rfl
@[simp] theorem State.addPops_rota (s : State) (n : Nat) : (s.addPops n).rota = s.rota := rfl
@[simp] theorem State.addPops_out (s : State) (n : Nat) : (s.addPops n).out = s.out := rfl

/-! ### Folds -/

/-- What every step of a fold leaves alone, the fold does. -/
theorem foldl_keeps {α β γ : Type} (g : β → γ) (f : β → α → β) (h : ∀ b a, g (f b a) = g b) (l : List α) (b : β) : g (l.foldl f b) = g b := by
  induction l generalizing b with
  | nil => rfl
  | cons a t ih => rw [List.foldl_cons, ih, h]
/-- What every step of a fold keeps, the fold does. -/
theorem foldl_inv {α β : Type} (p : β → Prop) (f : β → α → β) (h : ∀ b a, p b → p (f b a)) (l : List α) (b : β) (hb : p b) : p (l.foldl f b) := by
  induction l generalizing b with
  | nil => exact hb
  | cons a t ih => exact ih _ (h _ _ hb)

/-! ### Interrupts, the visor, dies -/

@[simp] theorem State.interrupt_cores (s : State) (d : DieId) (k : Nat) : (s.interrupt d k).cores = s.cores := rfl
@[simp] theorem State.interrupt_traps (s : State) (d : DieId) (k : Nat) : (s.interrupt d k).traps = s.traps := rfl
@[simp] theorem State.interrupt_die0 (s : State) (d : DieId) (k : Nat) : (s.interrupt d k).die0 = s.die0 := rfl
@[simp] theorem State.interrupt_die1 (s : State) (d : DieId) (k : Nat) : (s.interrupt d k).die1 = s.die1 := rfl
@[simp] theorem State.interrupt_pkg (s : State) (d : DieId) (k : Nat) : (s.interrupt d k).pkg = s.pkg := rfl
@[simp] theorem State.interrupt_mem (s : State) (d : DieId) (k : Nat) : (s.interrupt d k).mem = s.mem := rfl
@[simp] theorem State.interrupt_poison (s : State) (d : DieId) (k : Nat) : (s.interrupt d k).poison = s.poison := rfl
@[simp] theorem State.interrupt_watch (s : State) (d : DieId) (k : Nat) : (s.interrupt d k).watch = s.watch := rfl
@[simp] theorem State.interrupt_flags (s : State) (d : DieId) (k : Nat) : (s.interrupt d k).flags = s.flags := rfl
@[simp] theorem State.interrupt_updates (s : State) (d : DieId) (k : Nat) : (s.interrupt d k).updates = s.updates := rfl
@[simp] theorem State.interrupt_issue (s : State) (d : DieId) (k : Nat) : (s.interrupt d k).issue = s.issue := rfl
@[simp] theorem State.interrupt_tick (s : State) (d : DieId) (k : Nat) : (s.interrupt d k).tick = s.tick := rfl
@[simp] theorem State.interrupt_agenda (s : State) (d : DieId) (k : Nat) : (s.interrupt d k).agenda = s.agenda := rfl
@[simp] theorem State.interrupt_frontWords (s : State) (d : DieId) (k : Nat) : (s.interrupt d k).frontWords = s.frontWords := rfl
@[simp] theorem State.interrupt_hart (s : State) (d : DieId) (k : Nat) : (s.interrupt d k).hart = s.hart := rfl
@[simp] theorem State.interrupt_rota (s : State) (d : DieId) (k : Nat) : (s.interrupt d k).rota = s.rota := rfl
@[simp] theorem State.visorAdd_cores (s : State) (i n : Nat) : (s.visorAdd i n).cores = s.cores := rfl
@[simp] theorem State.visorAdd_traps (s : State) (i n : Nat) : (s.visorAdd i n).traps = s.traps := rfl
@[simp] theorem State.visorAdd_die0 (s : State) (i n : Nat) : (s.visorAdd i n).die0 = s.die0 := rfl
@[simp] theorem State.visorAdd_die1 (s : State) (i n : Nat) : (s.visorAdd i n).die1 = s.die1 := rfl
@[simp] theorem State.visorAdd_mem (s : State) (i n : Nat) : (s.visorAdd i n).mem = s.mem := rfl
@[simp] theorem State.visorAdd_poison (s : State) (i n : Nat) : (s.visorAdd i n).poison = s.poison := rfl
@[simp] theorem State.visorAdd_watch (s : State) (i n : Nat) : (s.visorAdd i n).watch = s.watch := rfl
@[simp] theorem State.visorAdd_flags (s : State) (i n : Nat) : (s.visorAdd i n).flags = s.flags := rfl
@[simp] theorem State.visorAdd_updates (s : State) (i n : Nat) : (s.visorAdd i n).updates = s.updates := rfl
@[simp] theorem State.visorAdd_issue (s : State) (i n : Nat) : (s.visorAdd i n).issue = s.issue := rfl
@[simp] theorem State.visorAdd_tick (s : State) (i n : Nat) : (s.visorAdd i n).tick = s.tick := rfl
@[simp] theorem State.visorAdd_agenda (s : State) (i n : Nat) : (s.visorAdd i n).agenda = s.agenda := rfl
@[simp] theorem State.visorAdd_frontWords (s : State) (i n : Nat) : (s.visorAdd i n).frontWords = s.frontWords := rfl
@[simp] theorem State.visorAdd_hart (s : State) (i n : Nat) : (s.visorAdd i n).hart = s.hart := rfl
@[simp] theorem State.visorAdd_rota (s : State) (i n : Nat) : (s.visorAdd i n).rota = s.rota := rfl
@[simp] theorem State.visorAdd_out (s : State) (i n : Nat) : (s.visorAdd i n).out = s.out := rfl
@[simp] theorem State.mapLaunch_cores (s : State) (d : DieId) (i : Nat) (f : Launch → Launch) : (s.mapLaunch d i f).cores = s.cores := State.mapDie_cores ..
@[simp] theorem State.mapLaunch_traps (s : State) (d : DieId) (i : Nat) (f : Launch → Launch) : (s.mapLaunch d i f).traps = s.traps := State.mapDie_traps ..
@[simp] theorem State.mapLaunch_pkg (s : State) (d : DieId) (i : Nat) (f : Launch → Launch) : (s.mapLaunch d i f).pkg = s.pkg := State.mapDie_pkg ..
@[simp] theorem State.mapLaunch_mem (s : State) (d : DieId) (i : Nat) (f : Launch → Launch) : (s.mapLaunch d i f).mem = s.mem := State.mapDie_mem ..
@[simp] theorem State.mapLaunch_poison (s : State) (d : DieId) (i : Nat) (f : Launch → Launch) : (s.mapLaunch d i f).poison = s.poison := State.mapDie_poison ..
@[simp] theorem State.mapLaunch_watch (s : State) (d : DieId) (i : Nat) (f : Launch → Launch) : (s.mapLaunch d i f).watch = s.watch := State.mapDie_watch ..
@[simp] theorem State.mapLaunch_flags (s : State) (d : DieId) (i : Nat) (f : Launch → Launch) : (s.mapLaunch d i f).flags = s.flags := State.mapDie_flags ..
@[simp] theorem State.mapLaunch_updates (s : State) (d : DieId) (i : Nat) (f : Launch → Launch) : (s.mapLaunch d i f).updates = s.updates := State.mapDie_updates ..
@[simp] theorem State.mapLaunch_issue (s : State) (d : DieId) (i : Nat) (f : Launch → Launch) : (s.mapLaunch d i f).issue = s.issue := State.mapDie_issue ..
@[simp] theorem State.mapLaunch_tick (s : State) (d : DieId) (i : Nat) (f : Launch → Launch) : (s.mapLaunch d i f).tick = s.tick := State.mapDie_tick ..
@[simp] theorem State.mapLaunch_agenda (s : State) (d : DieId) (i : Nat) (f : Launch → Launch) : (s.mapLaunch d i f).agenda = s.agenda := State.mapDie_agenda ..
@[simp] theorem State.mapLaunch_frontWords (s : State) (d : DieId) (i : Nat) (f : Launch → Launch) : (s.mapLaunch d i f).frontWords = s.frontWords := State.mapDie_frontWords ..
@[simp] theorem State.mapLaunch_hart (s : State) (d : DieId) (i : Nat) (f : Launch → Launch) : (s.mapLaunch d i f).hart = s.hart := State.mapDie_hart ..
@[simp] theorem State.mapLaunch_rota (s : State) (d : DieId) (i : Nat) (f : Launch → Launch) : (s.mapLaunch d i f).rota = s.rota := State.mapDie_rota ..
@[simp] theorem State.mapLaunch_out (s : State) (d : DieId) (i : Nat) (f : Launch → Launch) : (s.mapLaunch d i f).out = s.out := State.mapDie_out ..
theorem State.ctx_of_cores {s t : State} (h : t.cores = s.cores) (c : CoreId) (x : CtxId) : t.ctx c x = s.ctx c x := by simp [State.ctx, State.core, h]
theorem State.core_of_cores {s t : State} (h : t.cores = s.cores) (c : CoreId) : t.core c = s.core c := by simp [State.core, h]

/-! ### Waking contexts, raising clocks -/

@[simp] theorem State.wakeCtx_traps (s : State) (c : CoreId) (x : CtxId) : (s.wakeCtx c x).traps = s.traps := by
  unfold State.wakeCtx
  dsimp only
  split
  · split <;> rfl
  · rfl
@[simp] theorem State.wakeCtx_die0 (s : State) (c : CoreId) (x : CtxId) : (s.wakeCtx c x).die0 = s.die0 := by
  unfold State.wakeCtx
  dsimp only
  split
  · split <;> rfl
  · rfl
@[simp] theorem State.wakeCtx_die1 (s : State) (c : CoreId) (x : CtxId) : (s.wakeCtx c x).die1 = s.die1 := by
  unfold State.wakeCtx
  dsimp only
  split
  · split <;> rfl
  · rfl
@[simp] theorem State.wakeCtx_pkg (s : State) (c : CoreId) (x : CtxId) : (s.wakeCtx c x).pkg = s.pkg := by
  unfold State.wakeCtx
  dsimp only
  split
  · split <;> rfl
  · rfl
@[simp] theorem State.wakeCtx_mem (s : State) (c : CoreId) (x : CtxId) : (s.wakeCtx c x).mem = s.mem := by
  unfold State.wakeCtx
  dsimp only
  split
  · split <;> rfl
  · rfl
@[simp] theorem State.wakeCtx_poison (s : State) (c : CoreId) (x : CtxId) : (s.wakeCtx c x).poison = s.poison := by
  unfold State.wakeCtx
  dsimp only
  split
  · split <;> rfl
  · rfl
@[simp] theorem State.wakeCtx_watch (s : State) (c : CoreId) (x : CtxId) : (s.wakeCtx c x).watch = s.watch := by
  unfold State.wakeCtx
  dsimp only
  split
  · split <;> rfl
  · rfl
@[simp] theorem State.wakeCtx_flags (s : State) (c : CoreId) (x : CtxId) : (s.wakeCtx c x).flags = s.flags := by
  unfold State.wakeCtx
  dsimp only
  split
  · split <;> rfl
  · rfl
@[simp] theorem State.wakeCtx_updates (s : State) (c : CoreId) (x : CtxId) : (s.wakeCtx c x).updates = s.updates := by
  unfold State.wakeCtx
  dsimp only
  split
  · split <;> rfl
  · rfl
@[simp] theorem State.wakeCtx_issue (s : State) (c : CoreId) (x : CtxId) : (s.wakeCtx c x).issue = s.issue := by
  unfold State.wakeCtx
  dsimp only
  split
  · split <;> rfl
  · rfl
@[simp] theorem State.wakeCtx_tick (s : State) (c : CoreId) (x : CtxId) : (s.wakeCtx c x).tick = s.tick := by
  unfold State.wakeCtx
  dsimp only
  split
  · split <;> rfl
  · rfl
@[simp] theorem State.wakeCtx_agenda (s : State) (c : CoreId) (x : CtxId) : (s.wakeCtx c x).agenda = s.agenda := by
  unfold State.wakeCtx
  dsimp only
  split
  · split <;> rfl
  · rfl
@[simp] theorem State.wakeCtx_frontWords (s : State) (c : CoreId) (x : CtxId) : (s.wakeCtx c x).frontWords = s.frontWords := by
  unfold State.wakeCtx
  dsimp only
  split
  · split <;> rfl
  · rfl
@[simp] theorem State.wakeCtx_hart (s : State) (c : CoreId) (x : CtxId) : (s.wakeCtx c x).hart = s.hart := by
  unfold State.wakeCtx
  dsimp only
  split
  · split <;> rfl
  · rfl
@[simp] theorem State.wakeCtx_rota (s : State) (c : CoreId) (x : CtxId) : (s.wakeCtx c x).rota = s.rota := by
  unfold State.wakeCtx
  dsimp only
  split
  · split <;> rfl
  · rfl
@[simp] theorem State.wakeCtx_out (s : State) (c : CoreId) (x : CtxId) : (s.wakeCtx c x).out = s.out := by
  unfold State.wakeCtx
  dsimp only
  split
  · split <;> rfl
  · rfl
@[simp] theorem State.wake_traps (s : State) (c : CoreId) : (s.wake c).traps = s.traps := foldl_keeps _ _ (fun _ _ => State.wakeCtx_traps ..) _ _
@[simp] theorem State.wake_die0 (s : State) (c : CoreId) : (s.wake c).die0 = s.die0 := foldl_keeps _ _ (fun _ _ => State.wakeCtx_die0 ..) _ _
@[simp] theorem State.wake_die1 (s : State) (c : CoreId) : (s.wake c).die1 = s.die1 := foldl_keeps _ _ (fun _ _ => State.wakeCtx_die1 ..) _ _
@[simp] theorem State.wake_pkg (s : State) (c : CoreId) : (s.wake c).pkg = s.pkg := foldl_keeps _ _ (fun _ _ => State.wakeCtx_pkg ..) _ _
@[simp] theorem State.wake_mem (s : State) (c : CoreId) : (s.wake c).mem = s.mem := foldl_keeps _ _ (fun _ _ => State.wakeCtx_mem ..) _ _
@[simp] theorem State.wake_poison (s : State) (c : CoreId) : (s.wake c).poison = s.poison := foldl_keeps _ _ (fun _ _ => State.wakeCtx_poison ..) _ _
@[simp] theorem State.wake_watch (s : State) (c : CoreId) : (s.wake c).watch = s.watch := foldl_keeps _ _ (fun _ _ => State.wakeCtx_watch ..) _ _
@[simp] theorem State.wake_flags (s : State) (c : CoreId) : (s.wake c).flags = s.flags := foldl_keeps _ _ (fun _ _ => State.wakeCtx_flags ..) _ _
@[simp] theorem State.wake_updates (s : State) (c : CoreId) : (s.wake c).updates = s.updates := foldl_keeps _ _ (fun _ _ => State.wakeCtx_updates ..) _ _
@[simp] theorem State.wake_issue (s : State) (c : CoreId) : (s.wake c).issue = s.issue := foldl_keeps _ _ (fun _ _ => State.wakeCtx_issue ..) _ _
@[simp] theorem State.wake_tick (s : State) (c : CoreId) : (s.wake c).tick = s.tick := foldl_keeps _ _ (fun _ _ => State.wakeCtx_tick ..) _ _
@[simp] theorem State.wake_agenda (s : State) (c : CoreId) : (s.wake c).agenda = s.agenda := foldl_keeps _ _ (fun _ _ => State.wakeCtx_agenda ..) _ _
@[simp] theorem State.wake_frontWords (s : State) (c : CoreId) : (s.wake c).frontWords = s.frontWords := foldl_keeps _ _ (fun _ _ => State.wakeCtx_frontWords ..) _ _
@[simp] theorem State.wake_hart (s : State) (c : CoreId) : (s.wake c).hart = s.hart := foldl_keeps _ _ (fun _ _ => State.wakeCtx_hart ..) _ _
@[simp] theorem State.wake_rota (s : State) (c : CoreId) : (s.wake c).rota = s.rota := foldl_keeps _ _ (fun _ _ => State.wakeCtx_rota ..) _ _
@[simp] theorem State.wake_out (s : State) (c : CoreId) : (s.wake c).out = s.out := foldl_keeps _ _ (fun _ _ => State.wakeCtx_out ..) _ _
@[simp] theorem State.wakeAt_traps (s : State) (c : CoreId) (pa : Nat) : (s.wakeAt c pa).traps = s.traps := by unfold State.wakeAt; split <;> simp
@[simp] theorem State.wakeAt_die0 (s : State) (c : CoreId) (pa : Nat) : (s.wakeAt c pa).die0 = s.die0 := by unfold State.wakeAt; split <;> simp
@[simp] theorem State.wakeAt_die1 (s : State) (c : CoreId) (pa : Nat) : (s.wakeAt c pa).die1 = s.die1 := by unfold State.wakeAt; split <;> simp
@[simp] theorem State.wakeAt_pkg (s : State) (c : CoreId) (pa : Nat) : (s.wakeAt c pa).pkg = s.pkg := by unfold State.wakeAt; split <;> simp
@[simp] theorem State.wakeAt_mem (s : State) (c : CoreId) (pa : Nat) : (s.wakeAt c pa).mem = s.mem := by unfold State.wakeAt; split <;> simp
@[simp] theorem State.wakeAt_poison (s : State) (c : CoreId) (pa : Nat) : (s.wakeAt c pa).poison = s.poison := by unfold State.wakeAt; split <;> simp
@[simp] theorem State.wakeAt_watch (s : State) (c : CoreId) (pa : Nat) : (s.wakeAt c pa).watch = s.watch := by unfold State.wakeAt; split <;> simp
@[simp] theorem State.wakeAt_flags (s : State) (c : CoreId) (pa : Nat) : (s.wakeAt c pa).flags = s.flags := by unfold State.wakeAt; split <;> simp
@[simp] theorem State.wakeAt_updates (s : State) (c : CoreId) (pa : Nat) : (s.wakeAt c pa).updates = s.updates := by unfold State.wakeAt; split <;> simp
@[simp] theorem State.wakeAt_issue (s : State) (c : CoreId) (pa : Nat) : (s.wakeAt c pa).issue = s.issue := by unfold State.wakeAt; split <;> simp
@[simp] theorem State.wakeAt_tick (s : State) (c : CoreId) (pa : Nat) : (s.wakeAt c pa).tick = s.tick := by unfold State.wakeAt; split <;> simp
@[simp] theorem State.wakeAt_agenda (s : State) (c : CoreId) (pa : Nat) : (s.wakeAt c pa).agenda = s.agenda := by unfold State.wakeAt; split <;> simp
@[simp] theorem State.wakeAt_frontWords (s : State) (c : CoreId) (pa : Nat) : (s.wakeAt c pa).frontWords = s.frontWords := by unfold State.wakeAt; split <;> simp
@[simp] theorem State.wakeAt_hart (s : State) (c : CoreId) (pa : Nat) : (s.wakeAt c pa).hart = s.hart := by unfold State.wakeAt; split <;> simp
@[simp] theorem State.wakeAt_rota (s : State) (c : CoreId) (pa : Nat) : (s.wakeAt c pa).rota = s.rota := by unfold State.wakeAt; split <;> simp
@[simp] theorem State.wakeAt_out (s : State) (c : CoreId) (pa : Nat) : (s.wakeAt c pa).out = s.out := by unfold State.wakeAt; split <;> simp
@[simp] theorem State.wakeAll_traps (s : State) (cs : List CoreId) : (s.wakeAll cs).traps = s.traps := foldl_keeps _ _ (fun _ _ => State.wake_traps ..) _ _
@[simp] theorem State.wakeAll_die0 (s : State) (cs : List CoreId) : (s.wakeAll cs).die0 = s.die0 := foldl_keeps _ _ (fun _ _ => State.wake_die0 ..) _ _
@[simp] theorem State.wakeAll_die1 (s : State) (cs : List CoreId) : (s.wakeAll cs).die1 = s.die1 := foldl_keeps _ _ (fun _ _ => State.wake_die1 ..) _ _
@[simp] theorem State.wakeAll_pkg (s : State) (cs : List CoreId) : (s.wakeAll cs).pkg = s.pkg := foldl_keeps _ _ (fun _ _ => State.wake_pkg ..) _ _
@[simp] theorem State.wakeAll_mem (s : State) (cs : List CoreId) : (s.wakeAll cs).mem = s.mem := foldl_keeps _ _ (fun _ _ => State.wake_mem ..) _ _
@[simp] theorem State.wakeAll_poison (s : State) (cs : List CoreId) : (s.wakeAll cs).poison = s.poison := foldl_keeps _ _ (fun _ _ => State.wake_poison ..) _ _
@[simp] theorem State.wakeAll_watch (s : State) (cs : List CoreId) : (s.wakeAll cs).watch = s.watch := foldl_keeps _ _ (fun _ _ => State.wake_watch ..) _ _
@[simp] theorem State.wakeAll_flags (s : State) (cs : List CoreId) : (s.wakeAll cs).flags = s.flags := foldl_keeps _ _ (fun _ _ => State.wake_flags ..) _ _
@[simp] theorem State.wakeAll_updates (s : State) (cs : List CoreId) : (s.wakeAll cs).updates = s.updates := foldl_keeps _ _ (fun _ _ => State.wake_updates ..) _ _
@[simp] theorem State.wakeAll_issue (s : State) (cs : List CoreId) : (s.wakeAll cs).issue = s.issue := foldl_keeps _ _ (fun _ _ => State.wake_issue ..) _ _
@[simp] theorem State.wakeAll_tick (s : State) (cs : List CoreId) : (s.wakeAll cs).tick = s.tick := foldl_keeps _ _ (fun _ _ => State.wake_tick ..) _ _
@[simp] theorem State.wakeAll_agenda (s : State) (cs : List CoreId) : (s.wakeAll cs).agenda = s.agenda := foldl_keeps _ _ (fun _ _ => State.wake_agenda ..) _ _
@[simp] theorem State.wakeAll_frontWords (s : State) (cs : List CoreId) : (s.wakeAll cs).frontWords = s.frontWords := foldl_keeps _ _ (fun _ _ => State.wake_frontWords ..) _ _
@[simp] theorem State.wakeAll_hart (s : State) (cs : List CoreId) : (s.wakeAll cs).hart = s.hart := foldl_keeps _ _ (fun _ _ => State.wake_hart ..) _ _
@[simp] theorem State.wakeAll_rota (s : State) (cs : List CoreId) : (s.wakeAll cs).rota = s.rota := foldl_keeps _ _ (fun _ _ => State.wake_rota ..) _ _
@[simp] theorem State.wakeAll_out (s : State) (cs : List CoreId) : (s.wakeAll cs).out = s.out := foldl_keeps _ _ (fun _ _ => State.wake_out ..) _ _
@[simp] theorem State.raisePts_traps (s : State) (c : CoreId) (x : CtxId) (v : Nat) : (s.raisePts c x v).traps = s.traps := rfl
@[simp] theorem State.raisePts_die0 (s : State) (c : CoreId) (x : CtxId) (v : Nat) : (s.raisePts c x v).die0 = s.die0 := rfl
@[simp] theorem State.raisePts_die1 (s : State) (c : CoreId) (x : CtxId) (v : Nat) : (s.raisePts c x v).die1 = s.die1 := rfl
@[simp] theorem State.raisePts_pkg (s : State) (c : CoreId) (x : CtxId) (v : Nat) : (s.raisePts c x v).pkg = s.pkg := rfl
@[simp] theorem State.raisePts_mem (s : State) (c : CoreId) (x : CtxId) (v : Nat) : (s.raisePts c x v).mem = s.mem := rfl
@[simp] theorem State.raisePts_poison (s : State) (c : CoreId) (x : CtxId) (v : Nat) : (s.raisePts c x v).poison = s.poison := rfl
@[simp] theorem State.raisePts_watch (s : State) (c : CoreId) (x : CtxId) (v : Nat) : (s.raisePts c x v).watch = s.watch := rfl
@[simp] theorem State.raisePts_flags (s : State) (c : CoreId) (x : CtxId) (v : Nat) : (s.raisePts c x v).flags = s.flags := rfl
@[simp] theorem State.raisePts_updates (s : State) (c : CoreId) (x : CtxId) (v : Nat) : (s.raisePts c x v).updates = s.updates := rfl
@[simp] theorem State.raisePts_issue (s : State) (c : CoreId) (x : CtxId) (v : Nat) : (s.raisePts c x v).issue = s.issue := rfl
@[simp] theorem State.raisePts_tick (s : State) (c : CoreId) (x : CtxId) (v : Nat) : (s.raisePts c x v).tick = s.tick := rfl
@[simp] theorem State.raisePts_agenda (s : State) (c : CoreId) (x : CtxId) (v : Nat) : (s.raisePts c x v).agenda = s.agenda := rfl
@[simp] theorem State.raisePts_frontWords (s : State) (c : CoreId) (x : CtxId) (v : Nat) : (s.raisePts c x v).frontWords = s.frontWords := rfl
@[simp] theorem State.raisePts_hart (s : State) (c : CoreId) (x : CtxId) (v : Nat) : (s.raisePts c x v).hart = s.hart := rfl
@[simp] theorem State.raisePts_rota (s : State) (c : CoreId) (x : CtxId) (v : Nat) : (s.raisePts c x v).rota = s.rota := rfl
@[simp] theorem State.raisePts_out (s : State) (c : CoreId) (x : CtxId) (v : Nat) : (s.raisePts c x v).out = s.out := rfl
@[simp] theorem State.raisePtsAll_traps (s : State) (c : CoreId) (x : CtxId) : (s.raisePtsAll c x).traps = s.traps := rfl
@[simp] theorem State.raisePtsAll_die0 (s : State) (c : CoreId) (x : CtxId) : (s.raisePtsAll c x).die0 = s.die0 := rfl
@[simp] theorem State.raisePtsAll_die1 (s : State) (c : CoreId) (x : CtxId) : (s.raisePtsAll c x).die1 = s.die1 := rfl
@[simp] theorem State.raisePtsAll_pkg (s : State) (c : CoreId) (x : CtxId) : (s.raisePtsAll c x).pkg = s.pkg := rfl
@[simp] theorem State.raisePtsAll_mem (s : State) (c : CoreId) (x : CtxId) : (s.raisePtsAll c x).mem = s.mem := rfl
@[simp] theorem State.raisePtsAll_poison (s : State) (c : CoreId) (x : CtxId) : (s.raisePtsAll c x).poison = s.poison := rfl
@[simp] theorem State.raisePtsAll_watch (s : State) (c : CoreId) (x : CtxId) : (s.raisePtsAll c x).watch = s.watch := rfl
@[simp] theorem State.raisePtsAll_flags (s : State) (c : CoreId) (x : CtxId) : (s.raisePtsAll c x).flags = s.flags := rfl
@[simp] theorem State.raisePtsAll_updates (s : State) (c : CoreId) (x : CtxId) : (s.raisePtsAll c x).updates = s.updates := rfl
@[simp] theorem State.raisePtsAll_issue (s : State) (c : CoreId) (x : CtxId) : (s.raisePtsAll c x).issue = s.issue := rfl
@[simp] theorem State.raisePtsAll_tick (s : State) (c : CoreId) (x : CtxId) : (s.raisePtsAll c x).tick = s.tick := rfl
@[simp] theorem State.raisePtsAll_agenda (s : State) (c : CoreId) (x : CtxId) : (s.raisePtsAll c x).agenda = s.agenda := rfl
@[simp] theorem State.raisePtsAll_frontWords (s : State) (c : CoreId) (x : CtxId) : (s.raisePtsAll c x).frontWords = s.frontWords := rfl
@[simp] theorem State.raisePtsAll_hart (s : State) (c : CoreId) (x : CtxId) : (s.raisePtsAll c x).hart = s.hart := rfl
@[simp] theorem State.raisePtsAll_rota (s : State) (c : CoreId) (x : CtxId) : (s.raisePtsAll c x).rota = s.rota := rfl
@[simp] theorem State.raisePtsAll_out (s : State) (c : CoreId) (x : CtxId) : (s.raisePtsAll c x).out = s.out := rfl

/-! ### Writing memory -/

@[simp] theorem State.spadWrite_traps (s : State) (c : CoreId) (a : Nat) (b : List Byte) : (s.spadWrite c a b).traps = s.traps := rfl
@[simp] theorem State.spadWrite_die0 (s : State) (c : CoreId) (a : Nat) (b : List Byte) : (s.spadWrite c a b).die0 = s.die0 := rfl
@[simp] theorem State.spadWrite_die1 (s : State) (c : CoreId) (a : Nat) (b : List Byte) : (s.spadWrite c a b).die1 = s.die1 := rfl
@[simp] theorem State.spadWrite_pkg (s : State) (c : CoreId) (a : Nat) (b : List Byte) : (s.spadWrite c a b).pkg = s.pkg := rfl
@[simp] theorem State.spadWrite_flags (s : State) (c : CoreId) (a : Nat) (b : List Byte) : (s.spadWrite c a b).flags = s.flags := rfl
@[simp] theorem State.spadWrite_updates (s : State) (c : CoreId) (a : Nat) (b : List Byte) : (s.spadWrite c a b).updates = s.updates := rfl
@[simp] theorem State.spadWrite_issue (s : State) (c : CoreId) (a : Nat) (b : List Byte) : (s.spadWrite c a b).issue = s.issue := rfl
@[simp] theorem State.spadWrite_tick (s : State) (c : CoreId) (a : Nat) (b : List Byte) : (s.spadWrite c a b).tick = s.tick := rfl
@[simp] theorem State.spadWrite_agenda (s : State) (c : CoreId) (a : Nat) (b : List Byte) : (s.spadWrite c a b).agenda = s.agenda := rfl
@[simp] theorem State.spadWrite_frontWords (s : State) (c : CoreId) (a : Nat) (b : List Byte) : (s.spadWrite c a b).frontWords = s.frontWords := rfl
@[simp] theorem State.spadWrite_hart (s : State) (c : CoreId) (a : Nat) (b : List Byte) : (s.spadWrite c a b).hart = s.hart := rfl
@[simp] theorem State.spadWrite_rota (s : State) (c : CoreId) (a : Nat) (b : List Byte) : (s.spadWrite c a b).rota = s.rota := rfl
@[simp] theorem State.spadWrite_out (s : State) (c : CoreId) (a : Nat) (b : List Byte) : (s.spadWrite c a b).out = s.out := rfl
@[simp] theorem State.memWrite_traps (s : State) (pa : Nat) (b : List Byte) : (s.memWrite pa b).traps = s.traps := by unfold State.memWrite; split <;> rfl
@[simp] theorem State.memWrite_die0 (s : State) (pa : Nat) (b : List Byte) : (s.memWrite pa b).die0 = s.die0 := by unfold State.memWrite; split <;> rfl
@[simp] theorem State.memWrite_die1 (s : State) (pa : Nat) (b : List Byte) : (s.memWrite pa b).die1 = s.die1 := by unfold State.memWrite; split <;> rfl
@[simp] theorem State.memWrite_pkg (s : State) (pa : Nat) (b : List Byte) : (s.memWrite pa b).pkg = s.pkg := by unfold State.memWrite; split <;> rfl
@[simp] theorem State.memWrite_flags (s : State) (pa : Nat) (b : List Byte) : (s.memWrite pa b).flags = s.flags := by unfold State.memWrite; split <;> rfl
@[simp] theorem State.memWrite_updates (s : State) (pa : Nat) (b : List Byte) : (s.memWrite pa b).updates = s.updates := by unfold State.memWrite; split <;> rfl
@[simp] theorem State.memWrite_issue (s : State) (pa : Nat) (b : List Byte) : (s.memWrite pa b).issue = s.issue := by unfold State.memWrite; split <;> rfl
@[simp] theorem State.memWrite_tick (s : State) (pa : Nat) (b : List Byte) : (s.memWrite pa b).tick = s.tick := by unfold State.memWrite; split <;> rfl
@[simp] theorem State.memWrite_agenda (s : State) (pa : Nat) (b : List Byte) : (s.memWrite pa b).agenda = s.agenda := by unfold State.memWrite; split <;> rfl
@[simp] theorem State.memWrite_frontWords (s : State) (pa : Nat) (b : List Byte) : (s.memWrite pa b).frontWords = s.frontWords := by unfold State.memWrite; split <;> rfl
@[simp] theorem State.memWrite_hart (s : State) (pa : Nat) (b : List Byte) : (s.memWrite pa b).hart = s.hart := by unfold State.memWrite; split <;> rfl
@[simp] theorem State.memWrite_rota (s : State) (pa : Nat) (b : List Byte) : (s.memWrite pa b).rota = s.rota := by unfold State.memWrite; split <;> rfl
@[simp] theorem State.memWrite_out (s : State) (pa : Nat) (b : List Byte) : (s.memWrite pa b).out = s.out := by unfold State.memWrite; split <;> rfl
@[simp] theorem State.writeBy_traps (s : State) (kept host : Bool) (pa : Nat) (b : List Byte) : (s.writeBy kept host pa b).traps = s.traps := by
  unfold State.writeBy
  split
  · rfl
  · split
    · rw [State.memWrite_traps]; exact foldl_keeps (fun t : State => t.traps) _ (fun _ _ => State.mapDie_traps ..) _ _
    · exact State.memWrite_traps ..
@[simp] theorem State.writeBy_pkg (s : State) (kept host : Bool) (pa : Nat) (b : List Byte) : (s.writeBy kept host pa b).pkg = s.pkg := by
  unfold State.writeBy
  split
  · rfl
  · split
    · rw [State.memWrite_pkg]; exact foldl_keeps (fun t : State => t.pkg) _ (fun _ _ => State.mapDie_pkg ..) _ _
    · exact State.memWrite_pkg ..
@[simp] theorem State.writeBy_flags (s : State) (kept host : Bool) (pa : Nat) (b : List Byte) : (s.writeBy kept host pa b).flags = s.flags := by
  unfold State.writeBy
  split
  · rfl
  · split
    · rw [State.memWrite_flags]; exact foldl_keeps (fun t : State => t.flags) _ (fun _ _ => State.mapDie_flags ..) _ _
    · exact State.memWrite_flags ..
@[simp] theorem State.writeBy_updates (s : State) (kept host : Bool) (pa : Nat) (b : List Byte) : (s.writeBy kept host pa b).updates = s.updates := by
  unfold State.writeBy
  split
  · rfl
  · split
    · rw [State.memWrite_updates]; exact foldl_keeps (fun t : State => t.updates) _ (fun _ _ => State.mapDie_updates ..) _ _
    · exact State.memWrite_updates ..
@[simp] theorem State.writeBy_issue (s : State) (kept host : Bool) (pa : Nat) (b : List Byte) : (s.writeBy kept host pa b).issue = s.issue := by
  unfold State.writeBy
  split
  · rfl
  · split
    · rw [State.memWrite_issue]; exact foldl_keeps (fun t : State => t.issue) _ (fun _ _ => State.mapDie_issue ..) _ _
    · exact State.memWrite_issue ..
@[simp] theorem State.writeBy_tick (s : State) (kept host : Bool) (pa : Nat) (b : List Byte) : (s.writeBy kept host pa b).tick = s.tick := by
  unfold State.writeBy
  split
  · rfl
  · split
    · rw [State.memWrite_tick]; exact foldl_keeps (fun t : State => t.tick) _ (fun _ _ => State.mapDie_tick ..) _ _
    · exact State.memWrite_tick ..
@[simp] theorem State.writeBy_agenda (s : State) (kept host : Bool) (pa : Nat) (b : List Byte) : (s.writeBy kept host pa b).agenda = s.agenda := by
  unfold State.writeBy
  split
  · rfl
  · split
    · rw [State.memWrite_agenda]; exact foldl_keeps (fun t : State => t.agenda) _ (fun _ _ => State.mapDie_agenda ..) _ _
    · exact State.memWrite_agenda ..
@[simp] theorem State.writeBy_frontWords (s : State) (kept host : Bool) (pa : Nat) (b : List Byte) : (s.writeBy kept host pa b).frontWords = s.frontWords := by
  unfold State.writeBy
  split
  · rfl
  · split
    · rw [State.memWrite_frontWords]; exact foldl_keeps (fun t : State => t.frontWords) _ (fun _ _ => State.mapDie_frontWords ..) _ _
    · exact State.memWrite_frontWords ..
@[simp] theorem State.writeBy_hart (s : State) (kept host : Bool) (pa : Nat) (b : List Byte) : (s.writeBy kept host pa b).hart = s.hart := by
  unfold State.writeBy
  split
  · rfl
  · split
    · rw [State.memWrite_hart]; exact foldl_keeps (fun t : State => t.hart) _ (fun _ _ => State.mapDie_hart ..) _ _
    · exact State.memWrite_hart ..
@[simp] theorem State.writeBy_rota (s : State) (kept host : Bool) (pa : Nat) (b : List Byte) : (s.writeBy kept host pa b).rota = s.rota := by
  unfold State.writeBy
  split
  · rfl
  · split
    · rw [State.memWrite_rota]; exact foldl_keeps (fun t : State => t.rota) _ (fun _ _ => State.mapDie_rota ..) _ _
    · exact State.memWrite_rota ..
@[simp] theorem State.writeBy_out (s : State) (kept host : Bool) (pa : Nat) (b : List Byte) : (s.writeBy kept host pa b).out = s.out := by
  unfold State.writeBy
  split
  · rfl
  · split
    · rw [State.memWrite_out]; exact foldl_keeps (fun t : State => t.out) _ (fun _ _ => State.mapDie_out ..) _ _
    · exact State.memWrite_out ..
@[simp] theorem State.writeBy_mem (s : State) (kept host : Bool) (pa : Nat) (b : List Byte) : (s.writeBy kept host pa b).mem = Memory.setBytes s.mem pa b := by
  unfold State.writeBy
  split
  · next h => rw [h]; rfl
  · split
    · rw [State.memWrite_mem]; exact congrArg (Memory.setBytes · pa b) (foldl_keeps (fun t : State => t.mem) _ (fun _ _ => State.mapDie_mem ..) _ _)
    · exact State.memWrite_mem ..
@[simp] theorem State.otherWrite_traps (s : State) (pa : Nat) (b : List Byte) : (s.otherWrite pa b).traps = s.traps := State.writeBy_traps ..
@[simp] theorem State.otherWrite_pkg (s : State) (pa : Nat) (b : List Byte) : (s.otherWrite pa b).pkg = s.pkg := State.writeBy_pkg ..
@[simp] theorem State.otherWrite_flags (s : State) (pa : Nat) (b : List Byte) : (s.otherWrite pa b).flags = s.flags := State.writeBy_flags ..
@[simp] theorem State.otherWrite_updates (s : State) (pa : Nat) (b : List Byte) : (s.otherWrite pa b).updates = s.updates := State.writeBy_updates ..
@[simp] theorem State.otherWrite_issue (s : State) (pa : Nat) (b : List Byte) : (s.otherWrite pa b).issue = s.issue := State.writeBy_issue ..
@[simp] theorem State.otherWrite_tick (s : State) (pa : Nat) (b : List Byte) : (s.otherWrite pa b).tick = s.tick := State.writeBy_tick ..
@[simp] theorem State.otherWrite_agenda (s : State) (pa : Nat) (b : List Byte) : (s.otherWrite pa b).agenda = s.agenda := State.writeBy_agenda ..
@[simp] theorem State.otherWrite_frontWords (s : State) (pa : Nat) (b : List Byte) : (s.otherWrite pa b).frontWords = s.frontWords := State.writeBy_frontWords ..
@[simp] theorem State.otherWrite_hart (s : State) (pa : Nat) (b : List Byte) : (s.otherWrite pa b).hart = s.hart := State.writeBy_hart ..
@[simp] theorem State.otherWrite_rota (s : State) (pa : Nat) (b : List Byte) : (s.otherWrite pa b).rota = s.rota := State.writeBy_rota ..
@[simp] theorem State.otherWrite_out (s : State) (pa : Nat) (b : List Byte) : (s.otherWrite pa b).out = s.out := State.writeBy_out ..
@[simp] theorem State.otherWrite_mem (s : State) (pa : Nat) (b : List Byte) : (s.otherWrite pa b).mem = Memory.setBytes s.mem pa b := State.writeBy_mem ..

/-! ### Notes of unordered writes, lease copies -/

@[simp] theorem State.noteOn_traps (s : State) (w : Writer) (c : CoreId) (pa n : Nat) : (s.noteOn w c pa n).traps = s.traps := rfl
@[simp] theorem State.noteOn_die0 (s : State) (w : Writer) (c : CoreId) (pa n : Nat) : (s.noteOn w c pa n).die0 = s.die0 := rfl
@[simp] theorem State.noteOn_die1 (s : State) (w : Writer) (c : CoreId) (pa n : Nat) : (s.noteOn w c pa n).die1 = s.die1 := rfl
@[simp] theorem State.noteOn_pkg (s : State) (w : Writer) (c : CoreId) (pa n : Nat) : (s.noteOn w c pa n).pkg = s.pkg := rfl
@[simp] theorem State.noteOn_mem (s : State) (w : Writer) (c : CoreId) (pa n : Nat) : (s.noteOn w c pa n).mem = s.mem := rfl
@[simp] theorem State.noteOn_poison (s : State) (w : Writer) (c : CoreId) (pa n : Nat) : (s.noteOn w c pa n).poison = s.poison := rfl
@[simp] theorem State.noteOn_watch (s : State) (w : Writer) (c : CoreId) (pa n : Nat) : (s.noteOn w c pa n).watch = s.watch := rfl
@[simp] theorem State.noteOn_flags (s : State) (w : Writer) (c : CoreId) (pa n : Nat) : (s.noteOn w c pa n).flags = s.flags := rfl
@[simp] theorem State.noteOn_updates (s : State) (w : Writer) (c : CoreId) (pa n : Nat) : (s.noteOn w c pa n).updates = s.updates := rfl
@[simp] theorem State.noteOn_issue (s : State) (w : Writer) (c : CoreId) (pa n : Nat) : (s.noteOn w c pa n).issue = s.issue := rfl
@[simp] theorem State.noteOn_tick (s : State) (w : Writer) (c : CoreId) (pa n : Nat) : (s.noteOn w c pa n).tick = s.tick := rfl
@[simp] theorem State.noteOn_agenda (s : State) (w : Writer) (c : CoreId) (pa n : Nat) : (s.noteOn w c pa n).agenda = s.agenda := rfl
@[simp] theorem State.noteOn_frontWords (s : State) (w : Writer) (c : CoreId) (pa n : Nat) : (s.noteOn w c pa n).frontWords = s.frontWords := rfl
@[simp] theorem State.noteOn_hart (s : State) (w : Writer) (c : CoreId) (pa n : Nat) : (s.noteOn w c pa n).hart = s.hart := rfl
@[simp] theorem State.noteOn_rota (s : State) (w : Writer) (c : CoreId) (pa n : Nat) : (s.noteOn w c pa n).rota = s.rota := rfl
@[simp] theorem State.noteOn_out (s : State) (w : Writer) (c : CoreId) (pa n : Nat) : (s.noteOn w c pa n).out = s.out := rfl
@[simp] theorem State.spadWriteOn_traps (s : State) (w : Writer) (c : CoreId) (a : Nat) (b : List Byte) : (s.spadWriteOn w c a b).traps = s.traps := rfl
@[simp] theorem State.spadWriteOn_die0 (s : State) (w : Writer) (c : CoreId) (a : Nat) (b : List Byte) : (s.spadWriteOn w c a b).die0 = s.die0 := rfl
@[simp] theorem State.spadWriteOn_die1 (s : State) (w : Writer) (c : CoreId) (a : Nat) (b : List Byte) : (s.spadWriteOn w c a b).die1 = s.die1 := rfl
@[simp] theorem State.spadWriteOn_pkg (s : State) (w : Writer) (c : CoreId) (a : Nat) (b : List Byte) : (s.spadWriteOn w c a b).pkg = s.pkg := rfl
@[simp] theorem State.spadWriteOn_flags (s : State) (w : Writer) (c : CoreId) (a : Nat) (b : List Byte) : (s.spadWriteOn w c a b).flags = s.flags := rfl
@[simp] theorem State.spadWriteOn_updates (s : State) (w : Writer) (c : CoreId) (a : Nat) (b : List Byte) : (s.spadWriteOn w c a b).updates = s.updates := rfl
@[simp] theorem State.spadWriteOn_issue (s : State) (w : Writer) (c : CoreId) (a : Nat) (b : List Byte) : (s.spadWriteOn w c a b).issue = s.issue := rfl
@[simp] theorem State.spadWriteOn_tick (s : State) (w : Writer) (c : CoreId) (a : Nat) (b : List Byte) : (s.spadWriteOn w c a b).tick = s.tick := rfl
@[simp] theorem State.spadWriteOn_agenda (s : State) (w : Writer) (c : CoreId) (a : Nat) (b : List Byte) : (s.spadWriteOn w c a b).agenda = s.agenda := rfl
@[simp] theorem State.spadWriteOn_frontWords (s : State) (w : Writer) (c : CoreId) (a : Nat) (b : List Byte) : (s.spadWriteOn w c a b).frontWords = s.frontWords := rfl
@[simp] theorem State.spadWriteOn_hart (s : State) (w : Writer) (c : CoreId) (a : Nat) (b : List Byte) : (s.spadWriteOn w c a b).hart = s.hart := rfl
@[simp] theorem State.spadWriteOn_rota (s : State) (w : Writer) (c : CoreId) (a : Nat) (b : List Byte) : (s.spadWriteOn w c a b).rota = s.rota := rfl
@[simp] theorem State.spadWriteOn_out (s : State) (w : Writer) (c : CoreId) (a : Nat) (b : List Byte) : (s.spadWriteOn w c a b).out = s.out := rfl
@[simp] theorem State.spadWriteOn_mem (s : State) (w : Writer) (c : CoreId)
    (a : Nat) (b : List Byte) : (s.spadWriteOn w c a b).mem = Memory.setBytes s.mem (spadBase c + a) b := rfl
@[simp] theorem State.raiseFlag_cores (s : State) (c : CoreId) (x : CtxId) (pa n v : Nat) (points : List (Nat × Nat)) : (s.raiseFlag c x pa n v points).cores = s.cores := rfl
@[simp] theorem State.raiseFlag_traps (s : State) (c : CoreId) (x : CtxId) (pa n v : Nat) (points : List (Nat × Nat)) : (s.raiseFlag c x pa n v points).traps = s.traps := rfl
@[simp] theorem State.raiseFlag_die0 (s : State) (c : CoreId) (x : CtxId) (pa n v : Nat) (points : List (Nat × Nat)) : (s.raiseFlag c x pa n v points).die0 = s.die0 := rfl
@[simp] theorem State.raiseFlag_die1 (s : State) (c : CoreId) (x : CtxId) (pa n v : Nat) (points : List (Nat × Nat)) : (s.raiseFlag c x pa n v points).die1 = s.die1 := rfl
@[simp] theorem State.raiseFlag_pkg (s : State) (c : CoreId) (x : CtxId) (pa n v : Nat) (points : List (Nat × Nat)) : (s.raiseFlag c x pa n v points).pkg = s.pkg := rfl
@[simp] theorem State.raiseFlag_mem (s : State) (c : CoreId) (x : CtxId) (pa n v : Nat) (points : List (Nat × Nat)) : (s.raiseFlag c x pa n v points).mem = s.mem := rfl
@[simp] theorem State.raiseFlag_poison (s : State) (c : CoreId) (x : CtxId) (pa n v : Nat) (points : List (Nat × Nat)) : (s.raiseFlag c x pa n v points).poison = s.poison := rfl
@[simp] theorem State.raiseFlag_watch (s : State) (c : CoreId) (x : CtxId) (pa n v : Nat) (points : List (Nat × Nat)) : (s.raiseFlag c x pa n v points).watch = s.watch := rfl
@[simp] theorem State.raiseFlag_updates (s : State) (c : CoreId) (x : CtxId) (pa n v : Nat) (points : List (Nat × Nat)) : (s.raiseFlag c x pa n v points).updates = s.updates := rfl
@[simp] theorem State.raiseFlag_issue (s : State) (c : CoreId) (x : CtxId) (pa n v : Nat) (points : List (Nat × Nat)) : (s.raiseFlag c x pa n v points).issue = s.issue := rfl
@[simp] theorem State.raiseFlag_tick (s : State) (c : CoreId) (x : CtxId) (pa n v : Nat) (points : List (Nat × Nat)) : (s.raiseFlag c x pa n v points).tick = s.tick := rfl
@[simp] theorem State.raiseFlag_agenda (s : State) (c : CoreId) (x : CtxId) (pa n v : Nat) (points : List (Nat × Nat)) : (s.raiseFlag c x pa n v points).agenda = s.agenda := rfl
@[simp] theorem State.raiseFlag_frontWords (s : State) (c : CoreId) (x : CtxId) (pa n v : Nat) (points : List (Nat × Nat)) : (s.raiseFlag c x pa n v points).frontWords = s.frontWords := rfl
@[simp] theorem State.raiseFlag_hart (s : State) (c : CoreId) (x : CtxId) (pa n v : Nat) (points : List (Nat × Nat)) : (s.raiseFlag c x pa n v points).hart = s.hart := rfl
@[simp] theorem State.raiseFlag_rota (s : State) (c : CoreId) (x : CtxId) (pa n v : Nat) (points : List (Nat × Nat)) : (s.raiseFlag c x pa n v points).rota = s.rota := rfl
@[simp] theorem State.raiseFlag_out (s : State) (c : CoreId) (x : CtxId) (pa n v : Nat) (points : List (Nat × Nat)) : (s.raiseFlag c x pa n v points).out = s.out := rfl
/-- The context hears of releases, and nothing else changes. -/
@[simp] theorem State.hear_traps (s : State) (c : CoreId) (x : CtxId) (pa n : Nat) : (s.hear c x pa n).traps = s.traps := by unfold State.hear; split <;> rfl
@[simp] theorem State.hear_die0 (s : State) (c : CoreId) (x : CtxId) (pa n : Nat) : (s.hear c x pa n).die0 = s.die0 := by unfold State.hear; split <;> rfl
@[simp] theorem State.hear_die1 (s : State) (c : CoreId) (x : CtxId) (pa n : Nat) : (s.hear c x pa n).die1 = s.die1 := by unfold State.hear; split <;> rfl
@[simp] theorem State.hear_pkg (s : State) (c : CoreId) (x : CtxId) (pa n : Nat) : (s.hear c x pa n).pkg = s.pkg := by unfold State.hear; split <;> rfl
@[simp] theorem State.hear_mem (s : State) (c : CoreId) (x : CtxId) (pa n : Nat) : (s.hear c x pa n).mem = s.mem := by unfold State.hear; split <;> rfl
@[simp] theorem State.hear_poison (s : State) (c : CoreId) (x : CtxId) (pa n : Nat) : (s.hear c x pa n).poison = s.poison := by unfold State.hear; split <;> rfl
@[simp] theorem State.hear_watch (s : State) (c : CoreId) (x : CtxId) (pa n : Nat) : (s.hear c x pa n).watch = s.watch := by unfold State.hear; split <;> rfl
@[simp] theorem State.hear_flags (s : State) (c : CoreId) (x : CtxId) (pa n : Nat) : (s.hear c x pa n).flags = s.flags := by unfold State.hear; split <;> rfl
@[simp] theorem State.hear_updates (s : State) (c : CoreId) (x : CtxId) (pa n : Nat) : (s.hear c x pa n).updates = s.updates := by unfold State.hear; split <;> rfl
@[simp] theorem State.hear_issue (s : State) (c : CoreId) (x : CtxId) (pa n : Nat) : (s.hear c x pa n).issue = s.issue := by unfold State.hear; split <;> rfl
@[simp] theorem State.hear_tick (s : State) (c : CoreId) (x : CtxId) (pa n : Nat) : (s.hear c x pa n).tick = s.tick := by unfold State.hear; split <;> rfl
@[simp] theorem State.hear_agenda (s : State) (c : CoreId) (x : CtxId) (pa n : Nat) : (s.hear c x pa n).agenda = s.agenda := by unfold State.hear; split <;> rfl
@[simp] theorem State.hear_frontWords (s : State) (c : CoreId) (x : CtxId) (pa n : Nat) : (s.hear c x pa n).frontWords = s.frontWords := by unfold State.hear; split <;> rfl
@[simp] theorem State.hear_hart (s : State) (c : CoreId) (x : CtxId) (pa n : Nat) : (s.hear c x pa n).hart = s.hart := by unfold State.hear; split <;> rfl
@[simp] theorem State.hear_rota (s : State) (c : CoreId) (x : CtxId) (pa n : Nat) : (s.hear c x pa n).rota = s.rota := by unfold State.hear; split <;> rfl
@[simp] theorem State.hear_out (s : State) (c : CoreId) (x : CtxId) (pa n : Nat) : (s.hear c x pa n).out = s.out := by unfold State.hear; split <;> rfl
@[simp] theorem State.send_cores (s : State) (m : OutMsg) : (s.send m).cores = s.cores := rfl
@[simp] theorem State.send_traps (s : State) (m : OutMsg) : (s.send m).traps = s.traps := rfl
@[simp] theorem State.send_die0 (s : State) (m : OutMsg) : (s.send m).die0 = s.die0 := rfl
@[simp] theorem State.send_die1 (s : State) (m : OutMsg) : (s.send m).die1 = s.die1 := rfl
@[simp] theorem State.send_mem (s : State) (m : OutMsg) : (s.send m).mem = s.mem := rfl
@[simp] theorem State.send_poison (s : State) (m : OutMsg) : (s.send m).poison = s.poison := rfl
@[simp] theorem State.send_watch (s : State) (m : OutMsg) : (s.send m).watch = s.watch := rfl
@[simp] theorem State.send_flags (s : State) (m : OutMsg) : (s.send m).flags = s.flags := rfl
@[simp] theorem State.send_updates (s : State) (m : OutMsg) : (s.send m).updates = s.updates := rfl
@[simp] theorem State.send_issue (s : State) (m : OutMsg) : (s.send m).issue = s.issue := rfl
@[simp] theorem State.send_tick (s : State) (m : OutMsg) : (s.send m).tick = s.tick := rfl
@[simp] theorem State.send_agenda (s : State) (m : OutMsg) : (s.send m).agenda = s.agenda := rfl
@[simp] theorem State.send_frontWords (s : State) (m : OutMsg) : (s.send m).frontWords = s.frontWords := rfl
@[simp] theorem State.send_hart (s : State) (m : OutMsg) : (s.send m).hart = s.hart := rfl
@[simp] theorem State.send_rota (s : State) (m : OutMsg) : (s.send m).rota = s.rota := rfl
@[simp] theorem State.dropStale_traps (s : State) (c : CoreId) (clocked : Bool) : (s.dropStale c clocked).traps = s.traps := rfl
@[simp] theorem State.dropStale_die0 (s : State) (c : CoreId) (clocked : Bool) : (s.dropStale c clocked).die0 = s.die0 := rfl
@[simp] theorem State.dropStale_die1 (s : State) (c : CoreId) (clocked : Bool) : (s.dropStale c clocked).die1 = s.die1 := rfl
@[simp] theorem State.dropStale_pkg (s : State) (c : CoreId) (clocked : Bool) : (s.dropStale c clocked).pkg = s.pkg := rfl
@[simp] theorem State.dropStale_mem (s : State) (c : CoreId) (clocked : Bool) : (s.dropStale c clocked).mem = s.mem := rfl
@[simp] theorem State.dropStale_poison (s : State) (c : CoreId) (clocked : Bool) : (s.dropStale c clocked).poison = s.poison := rfl
@[simp] theorem State.dropStale_watch (s : State) (c : CoreId) (clocked : Bool) : (s.dropStale c clocked).watch = s.watch := rfl
@[simp] theorem State.dropStale_flags (s : State) (c : CoreId) (clocked : Bool) : (s.dropStale c clocked).flags = s.flags := rfl
@[simp] theorem State.dropStale_updates (s : State) (c : CoreId) (clocked : Bool) : (s.dropStale c clocked).updates = s.updates := rfl
@[simp] theorem State.dropStale_issue (s : State) (c : CoreId) (clocked : Bool) : (s.dropStale c clocked).issue = s.issue := rfl
@[simp] theorem State.dropStale_tick (s : State) (c : CoreId) (clocked : Bool) : (s.dropStale c clocked).tick = s.tick := rfl
@[simp] theorem State.dropStale_agenda (s : State) (c : CoreId) (clocked : Bool) : (s.dropStale c clocked).agenda = s.agenda := rfl
@[simp] theorem State.dropStale_frontWords (s : State) (c : CoreId) (clocked : Bool) : (s.dropStale c clocked).frontWords = s.frontWords := rfl
@[simp] theorem State.dropStale_hart (s : State) (c : CoreId) (clocked : Bool) : (s.dropStale c clocked).hart = s.hart := rfl
@[simp] theorem State.dropStale_rota (s : State) (c : CoreId) (clocked : Bool) : (s.dropStale c clocked).rota = s.rota := rfl
@[simp] theorem State.dropStale_out (s : State) (c : CoreId) (clocked : Bool) : (s.dropStale c clocked).out = s.out := rfl
@[simp] theorem State.accessWrite_mem (s : State) (c : CoreId) (a : Access) (v : Nat) : (s.accessWrite c a v).mem = Memory.setBytes s.mem a.pa (leBytes a.size v) := by
  unfold State.accessWrite; rw [State.raiseFlag_mem, State.memWrite_mem]; rfl
@[simp] theorem State.putSaved_traps (s : State) (g : SavedGroup) (own : Option Eng) (a : Nat) (b : List Byte) : (s.putSaved g own a b).traps = s.traps := by simp [State.putSaved]
@[simp] theorem State.putSaved_pkg (s : State) (g : SavedGroup) (own : Option Eng) (a : Nat) (b : List Byte) : (s.putSaved g own a b).pkg = s.pkg := by simp [State.putSaved]
@[simp] theorem State.putSaved_flags (s : State) (g : SavedGroup) (own : Option Eng) (a : Nat) (b : List Byte) : (s.putSaved g own a b).flags = s.flags := by simp [State.putSaved]
@[simp] theorem State.putSaved_updates (s : State) (g : SavedGroup) (own : Option Eng) (a : Nat) (b : List Byte) : (s.putSaved g own a b).updates = s.updates := by simp [State.putSaved]
@[simp] theorem State.putSaved_issue (s : State) (g : SavedGroup) (own : Option Eng) (a : Nat) (b : List Byte) : (s.putSaved g own a b).issue = s.issue := by simp [State.putSaved]
@[simp] theorem State.putSaved_tick (s : State) (g : SavedGroup) (own : Option Eng) (a : Nat) (b : List Byte) : (s.putSaved g own a b).tick = s.tick := by simp [State.putSaved]
@[simp] theorem State.putSaved_agenda (s : State) (g : SavedGroup) (own : Option Eng) (a : Nat) (b : List Byte) : (s.putSaved g own a b).agenda = s.agenda := by simp [State.putSaved]
@[simp] theorem State.putSaved_frontWords (s : State) (g : SavedGroup) (own : Option Eng) (a : Nat) (b : List Byte) : (s.putSaved g own a b).frontWords = s.frontWords := by simp [State.putSaved]
@[simp] theorem State.putSaved_hart (s : State) (g : SavedGroup) (own : Option Eng) (a : Nat) (b : List Byte) : (s.putSaved g own a b).hart = s.hart := by simp [State.putSaved]
@[simp] theorem State.putSaved_rota (s : State) (g : SavedGroup) (own : Option Eng) (a : Nat) (b : List Byte) : (s.putSaved g own a b).rota = s.rota := by simp [State.putSaved]
@[simp] theorem State.putSaved_out (s : State) (g : SavedGroup) (own : Option Eng) (a : Nat) (b : List Byte) : (s.putSaved g own a b).out = s.out := by simp [State.putSaved]
@[simp] theorem State.putSaved_mem (s : State) (g : SavedGroup) (own : Option Eng) (a : Nat) (b : List Byte) : (s.putSaved g own a b).mem = Memory.setBytes s.mem (g.area + 0x200000 + a) b := by simp [State.putSaved]
@[simp] theorem State.deliver_traps (s : State) (c : CoreId) (l : Option Nat) (a : Nat) (b : List Byte) : (s.deliver c l a b).traps = s.traps := by unfold State.deliver; split <;> simp
@[simp] theorem State.deliver_pkg (s : State) (c : CoreId) (l : Option Nat) (a : Nat) (b : List Byte) : (s.deliver c l a b).pkg = s.pkg := by unfold State.deliver; split <;> simp
@[simp] theorem State.deliver_flags (s : State) (c : CoreId) (l : Option Nat) (a : Nat) (b : List Byte) : (s.deliver c l a b).flags = s.flags := by unfold State.deliver; split <;> simp
@[simp] theorem State.deliver_updates (s : State) (c : CoreId) (l : Option Nat) (a : Nat) (b : List Byte) : (s.deliver c l a b).updates = s.updates := by unfold State.deliver; split <;> simp
@[simp] theorem State.deliver_issue (s : State) (c : CoreId) (l : Option Nat) (a : Nat) (b : List Byte) : (s.deliver c l a b).issue = s.issue := by unfold State.deliver; split <;> simp
@[simp] theorem State.deliver_tick (s : State) (c : CoreId) (l : Option Nat) (a : Nat) (b : List Byte) : (s.deliver c l a b).tick = s.tick := by unfold State.deliver; split <;> simp
@[simp] theorem State.deliver_agenda (s : State) (c : CoreId) (l : Option Nat) (a : Nat) (b : List Byte) : (s.deliver c l a b).agenda = s.agenda := by unfold State.deliver; split <;> simp
@[simp] theorem State.deliver_frontWords (s : State) (c : CoreId) (l : Option Nat) (a : Nat) (b : List Byte) : (s.deliver c l a b).frontWords = s.frontWords := by unfold State.deliver; split <;> simp
@[simp] theorem State.deliver_hart (s : State) (c : CoreId) (l : Option Nat) (a : Nat) (b : List Byte) : (s.deliver c l a b).hart = s.hart := by unfold State.deliver; split <;> simp
@[simp] theorem State.deliver_rota (s : State) (c : CoreId) (l : Option Nat) (a : Nat) (b : List Byte) : (s.deliver c l a b).rota = s.rota := by unfold State.deliver; split <;> simp
@[simp] theorem State.deliver_out (s : State) (c : CoreId) (l : Option Nat) (a : Nat) (b : List Byte) : (s.deliver c l a b).out = s.out := by unfold State.deliver; split <;> simp
/-- A delivery writes its bytes where the core's scratchpad stands: there, or in an image (R372). -/
@[simp] theorem State.deliver_mem (s : State) (c : CoreId) (l : Option Nat) (a : Nat) (b : List Byte) :
    (s.deliver c l a b).mem = Memory.setBytes s.mem (s.spadHome c l + a) b := by
  unfold State.deliver State.spadHome
  cases s.savedGroup c l <;> simp
@[simp] theorem State.updateBarrier_traps (s : State) (c : CoreId) (l : Option Nat) (a : Nat) (k : UpdKind) (n : Nat) : (s.updateBarrier c l a k n).traps = s.traps := by unfold State.updateBarrier; dsimp only; split <;> simp
@[simp] theorem State.updateBarrier_pkg (s : State) (c : CoreId) (l : Option Nat) (a : Nat) (k : UpdKind) (n : Nat) : (s.updateBarrier c l a k n).pkg = s.pkg := by unfold State.updateBarrier; dsimp only; split <;> simp
@[simp] theorem State.updateBarrier_flags (s : State) (c : CoreId) (l : Option Nat) (a : Nat) (k : UpdKind) (n : Nat) : (s.updateBarrier c l a k n).flags = s.flags := by unfold State.updateBarrier; dsimp only; split <;> simp
@[simp] theorem State.updateBarrier_updates (s : State) (c : CoreId) (l : Option Nat) (a : Nat) (k : UpdKind) (n : Nat) : (s.updateBarrier c l a k n).updates = s.updates := by unfold State.updateBarrier; dsimp only; split <;> simp
@[simp] theorem State.updateBarrier_issue (s : State) (c : CoreId) (l : Option Nat) (a : Nat) (k : UpdKind) (n : Nat) : (s.updateBarrier c l a k n).issue = s.issue := by unfold State.updateBarrier; dsimp only; split <;> simp
@[simp] theorem State.updateBarrier_tick (s : State) (c : CoreId) (l : Option Nat) (a : Nat) (k : UpdKind) (n : Nat) : (s.updateBarrier c l a k n).tick = s.tick := by unfold State.updateBarrier; dsimp only; split <;> simp
@[simp] theorem State.updateBarrier_agenda (s : State) (c : CoreId) (l : Option Nat) (a : Nat) (k : UpdKind) (n : Nat) : (s.updateBarrier c l a k n).agenda = s.agenda := by unfold State.updateBarrier; dsimp only; split <;> simp
@[simp] theorem State.updateBarrier_frontWords (s : State) (c : CoreId) (l : Option Nat) (a : Nat) (k : UpdKind) (n : Nat) : (s.updateBarrier c l a k n).frontWords = s.frontWords := by unfold State.updateBarrier; dsimp only; split <;> simp
@[simp] theorem State.updateBarrier_hart (s : State) (c : CoreId) (l : Option Nat) (a : Nat) (k : UpdKind) (n : Nat) : (s.updateBarrier c l a k n).hart = s.hart := by unfold State.updateBarrier; dsimp only; split <;> simp
@[simp] theorem State.updateBarrier_rota (s : State) (c : CoreId) (l : Option Nat) (a : Nat) (k : UpdKind) (n : Nat) : (s.updateBarrier c l a k n).rota = s.rota := by unfold State.updateBarrier; dsimp only; split <;> simp
@[simp] theorem State.updateBarrier_out (s : State) (c : CoreId) (l : Option Nat) (a : Nat) (k : UpdKind) (n : Nat) : (s.updateBarrier c l a k n).out = s.out := by unfold State.updateBarrier; dsimp only; split <;> simp
/-- A barrier update rewrites the 16 bytes of its barrier and nothing else of memory (R306). -/
@[simp] theorem State.updateBarrier_mem (s : State) (c : CoreId) (l : Option Nat) (a : Nat) (k : UpdKind) (n : Nat) :
    (s.updateBarrier c l a k n).mem =
      Memory.setBytes s.mem (s.spadHome c l + a) (leBytes 16 ((Barrier.ofNat (Memory.read s.mem (s.spadHome c l + a) 16)).update k n).toNat) := by
  unfold State.updateBarrier; dsimp only; split <;> simp

/-! ### Kept contexts -/

/-- Every context is the same but for its readiness and its clock: no register but `%pts` changes. -/
def State.Keeps (s t : State) : Prop := ∀ c x, ∃ st on_ readyAt pts, t.ctx c x = { s.ctx c x with st := st, on_ := on_, readyAt := readyAt, pts := pts }
theorem State.Keeps.refl (s : State) : s.Keeps s := fun _ _ => ⟨_, _, _, _, rfl⟩
theorem State.Keeps.trans {s t u : State} (h : s.Keeps t) (k : t.Keeps u) : s.Keeps u := fun c x => by
  obtain ⟨a, b, d, e, h⟩ := h c x
  obtain ⟨a', b', d', e', k⟩ := k c x
  exact ⟨a', b', d', e', by rw [k, h]⟩
theorem State.Keeps.of_cores {s t : State} (h : t.cores = s.cores) : s.Keeps t := fun c x => ⟨_, _, _, _, State.ctx_of_cores h c x⟩
theorem State.Keeps.of_ctx {s t : State} (h : ∀ c x, t.ctx c x = s.ctx c x) : s.Keeps t := fun c x => ⟨_, _, _, _, h c x⟩
/-- A change of a core that leaves its contexts. -/
theorem State.keeps_mapCore (s : State) (c : CoreId) (f : Core → Core) (h : ∀ k, (f k).ctxs = k.ctxs) : s.Keeps (s.mapCore c f) :=
  .of_ctx fun e x => by
    by_cases he : e = c
    · subst he; simp [State.ctx, Core.ctx, h]
    · simp [State.ctx, State.core_mapCore_ne _ _ (Ne.symm he)]
theorem State.keeps_mapCtx (s : State) (c : CoreId) (x : CtxId) (f : Ctx → Ctx) (h : ∀ k, ∃ st on_ readyAt pts, f k = { k with st := st, on_ := on_, readyAt := readyAt, pts := pts }) :
    s.Keeps (s.mapCtx c x f) := fun e y => by
  by_cases he : e = c ∧ y = x
  · obtain ⟨rfl, rfl⟩ := he
    obtain ⟨a, b, d, g, hf⟩ := h (s.ctx e y)
    exact ⟨a, b, d, g, by rw [State.ctx_mapCtx_self, hf]⟩
  · exact ⟨_, _, _, _, by rw [State.ctx_mapCtx]; simp [show ¬(c = e ∧ x = y) from fun h => he ⟨h.1.symm, h.2.symm⟩]; rfl⟩
theorem State.keeps_wakeCtx (s : State) (c : CoreId) (x : CtxId) : s.Keeps (s.wakeCtx c x) := by
  unfold State.wakeCtx
  dsimp only
  split
  · split
    · exact State.keeps_mapCtx _ _ _ _ fun k => ⟨_, _, _, _, rfl⟩
    · exact .refl s
  · exact .refl s
theorem State.keeps_foldl {α : Type} (f : State → α → State) (h : ∀ (t : State) a, State.Keeps t (f t a)) (l : List α) (s : State) : s.Keeps (l.foldl f s) :=
  foldl_inv (fun t => s.Keeps t) f (fun t a k => k.trans (h t a)) l s (.refl s)
theorem State.keeps_wake (s : State) (c : CoreId) : s.Keeps (s.wake c) := State.keeps_foldl _ (fun t x => State.keeps_wakeCtx t c x) _ _
theorem State.keeps_wakeAt (s : State) (c : CoreId) (pa : Nat) : s.Keeps (s.wakeAt c pa) := by
  unfold State.wakeAt
  split
  · exact (State.keeps_wake _ _).trans (State.keeps_wake _ _)
  · exact State.keeps_wake _ _
theorem State.keeps_wakeAll (s : State) (cs : List CoreId) : s.Keeps (s.wakeAll cs) := State.keeps_foldl _ (fun t c => State.keeps_wake t c) _ _
theorem State.keeps_raisePts (s : State) (c : CoreId) (x : CtxId) (v : Nat) : s.Keeps (s.raisePts c x v) := State.keeps_mapCtx _ _ _ _ fun k => ⟨_, _, _, _, rfl⟩
theorem State.keeps_raisePtsAll (s : State) (c : CoreId) (x : CtxId) : s.Keeps (s.raisePtsAll c x) := State.keeps_raisePts _ _ _ _
theorem State.keeps_mapDie (s : State) (d : DieId) (f : Die → Die) : s.Keeps (s.mapDie d f) := .of_cores (State.mapDie_cores ..)
theorem State.keeps_spadWrite (s : State) (c : CoreId) (a : Nat) (b : List Byte) : s.Keeps (s.spadWrite c a b) :=
  (s.keeps_mapCore c (·.noteWrite a b.length) fun _ => rfl).trans (.of_cores rfl)
theorem State.keeps_memWrite (s : State) (pa : Nat) (b : List Byte) : s.Keeps (s.memWrite pa b) := by
  unfold State.memWrite
  split
  · exact State.keeps_spadWrite _ _ _ _
  · exact .of_cores rfl
theorem State.keeps_writeBy (s : State) (kept host : Bool) (pa : Nat) (b : List Byte) : s.Keeps (s.writeBy kept host pa b) := by
  unfold State.writeBy
  split
  · exact .refl s
  · split
    · exact (State.keeps_foldl _ (fun t (_ : Nat) => State.keeps_mapDie t _ _) _ _).trans (State.keeps_memWrite _ _ _)
    · exact State.keeps_memWrite _ _ _
theorem State.keeps_otherWrite (s : State) (pa : Nat) (b : List Byte) : s.Keeps (s.otherWrite pa b) := State.keeps_writeBy _ _ _ _ _
theorem State.Keeps.of_mapCore {s : State} (c : CoreId) (f : Core → Core) (h : (f (s.core c)).ctxs = (s.core c).ctxs) : s.Keeps (s.mapCore c f) :=
  .of_ctx fun e x => by
    by_cases he : e = c
    · subst he; simp [State.ctx, Core.ctx, h]
    · simp [State.ctx, State.core_mapCore_ne _ _ (Ne.symm he)]
theorem Core.noteFresh_ctxs (k : Core) (r : Fresh) : (k.noteFresh r).ctxs = k.ctxs := rfl
theorem State.keeps_noteOn (s : State) (w : Writer) (c : CoreId) (pa n : Nat) :
    s.Keeps (s.noteOn w c pa n) := State.Keeps.of_mapCore _ _ (Core.noteFresh_ctxs ..)
theorem State.keeps_spadWriteOn (s : State) (w : Writer) (c : CoreId) (a : Nat)
    (b : List Byte) : s.Keeps (s.spadWriteOn w c a b) := (State.keeps_noteOn _ _ _ _ _).trans (State.keeps_spadWrite _ _ _ _)
theorem State.keeps_dropStale (s : State) (c : CoreId) (clocked : Bool) : s.Keeps (s.dropStale c clocked) := State.keeps_mapCore _ _ _ fun _ => rfl
theorem State.keeps_putSaved (s : State) (g : SavedGroup) (own : Option Eng) (a : Nat) (b : List Byte) : s.Keeps (s.putSaved g own a b) :=
  (State.keeps_mapDie _ _ _).trans (State.keeps_otherWrite _ _ _)
theorem State.keeps_deliver (s : State) (c : CoreId) (l : Option Nat) (a : Nat) (b : List Byte) : s.Keeps (s.deliver c l a b) := by
  unfold State.deliver
  split
  · exact State.keeps_putSaved _ _ _ _ _
  · exact State.keeps_spadWrite _ _ _ _
theorem State.keeps_updateBarrier (s : State) (c : CoreId) (l : Option Nat) (a : Nat) (k : UpdKind) (n : Nat) : s.Keeps (s.updateBarrier c l a k n) :=
 by
  unfold State.updateBarrier; dsimp only
  refine State.Keeps.trans ?_ (State.keeps_wake _ c)
  split
  · exact (State.keeps_deliver _ _ _ _ _).trans (State.keeps_mapCore _ _ _ fun _ => rfl)
  · exact State.keeps_deliver _ _ _ _ _
/-- What `Keeps` says of a register. -/
theorem State.Keeps.regs {s t : State} (h : s.Keeps t) (c : CoreId) (x : CtxId) :
    (t.ctx c x).s = (s.ctx c x).s ∧ (t.ctx c x).p = (s.ctx c x).p ∧ (t.ctx c x).v = (s.ctx c x).v ∧ (t.ctx c x).pc = (s.ctx c x).pc ∧ (t.ctx c x).dmem = (s.ctx c x).dmem := by
  obtain ⟨_, _, _, _, h⟩ := h c x
  rw [h]; exact ⟨rfl, rfl, rfl, rfl, rfl⟩

end Sys2Proof.Machine
end

