-- ==== Sys2Proof/Laws/PerInstr.lean ====
section
/-!
SUPPORT. Sys2Proof/Laws/PerInstr.lean: statements made of every instruction, one lemma per constructor.
-/
namespace Sys2Proof.Laws

/-- The words of R60, R61 and R352 have 32 bits: so has every word the encoder gives the instruction, if it gives one. -/
def Encodable.Statement (i : Instr) : Prop := ∀ k w, encode i = some (k, w) → w < 2 ^ 32

theorem encodable_some {i : Instr} {k : WordKind} {w : Nat} (e : encode i = some (k, w)) (h : w < 2 ^ 32) : Encodable.Statement i :=
  fun _ _ e' => by rw [e] at e'; injection e' with e'; injection e' with _ e'; exact e' ▸ h
theorem encodable_none {i : Instr} (e : encode i = none) : Encodable.Statement i := fun _ _ e' => by rw [e] at e'; nomatch e'

theorem Encodable.add (g : Guard) (d a : SReg) (b : Src) : Encodable.Statement (.add g d a b) := encodable_some rfl (rform_lt ..)
theorem Encodable.sub (g : Guard) (d a : SReg) (b : Src) : Encodable.Statement (.sub g d a b) := encodable_some rfl (rform_lt ..)
theorem Encodable.mul (g : Guard) (d a : SReg) (b : Src) : Encodable.Statement (.mul g d a b) := encodable_some rfl (rform_lt ..)
theorem Encodable.mulh (g : Guard) (d a : SReg) (b : Src) : Encodable.Statement (.mulh g d a b) := encodable_some rfl (rform_lt ..)
theorem Encodable.mulhN (g : Guard) (d a : SReg) (b : Src) : Encodable.Statement (.mulhN g d a b) := encodable_some rfl (rform_lt ..)
theorem Encodable.div (g : Guard) (d a : SReg) (b : Src) : Encodable.Statement (.div g d a b) := encodable_some rfl (rform_lt ..)
theorem Encodable.divN (g : Guard) (d a : SReg) (b : Src) : Encodable.Statement (.divN g d a b) := encodable_some rfl (rform_lt ..)
theorem Encodable.rem (g : Guard) (d a : SReg) (b : Src) : Encodable.Statement (.rem g d a b) := encodable_some rfl (rform_lt ..)
theorem Encodable.remN (g : Guard) (d a : SReg) (b : Src) : Encodable.Statement (.remN g d a b) := encodable_some rfl (rform_lt ..)
theorem Encodable.and (g : Guard) (d a : SReg) (b : Src) : Encodable.Statement (.and g d a b) := encodable_some rfl (rform_lt ..)
theorem Encodable.or (g : Guard) (d a : SReg) (b : Src) : Encodable.Statement (.or g d a b) := encodable_some rfl (rform_lt ..)
theorem Encodable.xor (g : Guard) (d a : SReg) (b : Src) : Encodable.Statement (.xor g d a b) := encodable_some rfl (rform_lt ..)
theorem Encodable.andn (g : Guard) (d a : SReg) (b : Src) : Encodable.Statement (.andn g d a b) := encodable_some rfl (rform_lt ..)
theorem Encodable.shl (g : Guard) (d a : SReg) (b : Src) : Encodable.Statement (.shl g d a b) := encodable_some rfl (rform_lt ..)
theorem Encodable.shr (g : Guard) (d a : SReg) (b : Src) : Encodable.Statement (.shr g d a b) := encodable_some rfl (rform_lt ..)
theorem Encodable.sra (g : Guard) (d a : SReg) (b : Src) : Encodable.Statement (.sra g d a b) := encodable_some rfl (rform_lt ..)
theorem Encodable.rol (g : Guard) (d a : SReg) (b : Src) : Encodable.Statement (.rol g d a b) := encodable_some rfl (rform_lt ..)
theorem Encodable.ror (g : Guard) (d a : SReg) (b : Src) : Encodable.Statement (.ror g d a b) := encodable_some rfl (rform_lt ..)
theorem Encodable.clz (g : Guard) (d : SReg) (b : Src) : Encodable.Statement (.clz g d b) := encodable_some rfl (rform_lt ..)
theorem Encodable.ctz (g : Guard) (d : SReg) (b : Src) : Encodable.Statement (.ctz g d b) := encodable_some rfl (rform_lt ..)
theorem Encodable.popc (g : Guard) (d : SReg) (b : Src) : Encodable.Statement (.popc g d b) := encodable_some rfl (rform_lt ..)
theorem Encodable.min (g : Guard) (d a : SReg) (b : Src) : Encodable.Statement (.min g d a b) := encodable_some rfl (rform_lt ..)
theorem Encodable.max (g : Guard) (d a : SReg) (b : Src) : Encodable.Statement (.max g d a b) := encodable_some rfl (rform_lt ..)
theorem Encodable.minN (g : Guard) (d a : SReg) (b : Src) : Encodable.Statement (.minN g d a b) := encodable_some rfl (rform_lt ..)
theorem Encodable.maxN (g : Guard) (d a : SReg) (b : Src) : Encodable.Statement (.maxN g d a b) := encodable_some rfl (rform_lt ..)
theorem Encodable.sext8 (g : Guard) (d : SReg) (b : Src) : Encodable.Statement (.sext8 g d b) := encodable_some rfl (rform_lt ..)
theorem Encodable.sext16 (g : Guard) (d : SReg) (b : Src) : Encodable.Statement (.sext16 g d b) := encodable_some rfl (rform_lt ..)
theorem Encodable.sext32 (g : Guard) (d : SReg) (b : Src) : Encodable.Statement (.sext32 g d b) := encodable_some rfl (rform_lt ..)
theorem Encodable.zext8 (g : Guard) (d : SReg) (b : Src) : Encodable.Statement (.zext8 g d b) := encodable_some rfl (rform_lt ..)
theorem Encodable.zext16 (g : Guard) (d : SReg) (b : Src) : Encodable.Statement (.zext16 g d b) := encodable_some rfl (rform_lt ..)
theorem Encodable.zext32 (g : Guard) (d : SReg) (b : Src) : Encodable.Statement (.zext32 g d b) := encodable_some rfl (rform_lt ..)
theorem Encodable.bfx (g : Guard) (d a : SReg) (b : Src) : Encodable.Statement (.bfx g d a b) := encodable_some rfl (rform_lt ..)
theorem Encodable.bfxN (g : Guard) (d a : SReg) (b : Src) : Encodable.Statement (.bfxN g d a b) := encodable_some rfl (rform_lt ..)
theorem Encodable.bfi (g : Guard) (d a : SReg) (b : Src) : Encodable.Statement (.bfi g d a b) := encodable_some rfl (rform_lt ..)
theorem Encodable.sel (g : Guard) (d a : SReg) (b : Src) : Encodable.Statement (.sel g d a b) := encodable_some rfl (rform_lt ..)
theorem Encodable.lea1 (g : Guard) (d a : SReg) (b : Src) : Encodable.Statement (.lea1 g d a b) := encodable_some rfl (rform_lt ..)
theorem Encodable.lea2 (g : Guard) (d a : SReg) (b : Src) : Encodable.Statement (.lea2 g d a b) := encodable_some rfl (rform_lt ..)
theorem Encodable.lea4 (g : Guard) (d a : SReg) (b : Src) : Encodable.Statement (.lea4 g d a b) := encodable_some rfl (rform_lt ..)
theorem Encodable.lea8 (g : Guard) (d a : SReg) (b : Src) : Encodable.Statement (.lea8 g d a b) := encodable_some rfl (rform_lt ..)
theorem Encodable.addS (g : Guard) (d a : SReg) (b : Src) : Encodable.Statement (.addS g d a b) := encodable_some rfl (rform_lt ..)
theorem Encodable.subS (g : Guard) (d a : SReg) (b : Src) : Encodable.Statement (.subS g d a b) := encodable_some rfl (rform_lt ..)
theorem Encodable.addSN (g : Guard) (d a : SReg) (b : Src) : Encodable.Statement (.addSN g d a b) := encodable_some rfl (rform_lt ..)
theorem Encodable.subSN (g : Guard) (d a : SReg) (b : Src) : Encodable.Statement (.subSN g d a b) := encodable_some rfl (rform_lt ..)
theorem Encodable.cmpEq (g : Guard) (d : PReg) (a : SReg) (b : Src) : Encodable.Statement (.cmpEq g d a b) := encodable_some rfl (rform_lt ..)
theorem Encodable.cmpNe (g : Guard) (d : PReg) (a : SReg) (b : Src) : Encodable.Statement (.cmpNe g d a b) := encodable_some rfl (rform_lt ..)
theorem Encodable.cmpLt (g : Guard) (d : PReg) (a : SReg) (b : Src) : Encodable.Statement (.cmpLt g d a b) := encodable_some rfl (rform_lt ..)
theorem Encodable.cmpLe (g : Guard) (d : PReg) (a : SReg) (b : Src) : Encodable.Statement (.cmpLe g d a b) := encodable_some rfl (rform_lt ..)
theorem Encodable.cmpLtN (g : Guard) (d : PReg) (a : SReg) (b : Src) : Encodable.Statement (.cmpLtN g d a b) := encodable_some rfl (rform_lt ..)
theorem Encodable.cmpLeN (g : Guard) (d : PReg) (a : SReg) (b : Src) : Encodable.Statement (.cmpLeN g d a b) := encodable_some rfl (rform_lt ..)
theorem Encodable.pand (g : Guard) (d a : PReg) (b : PSrc) : Encodable.Statement (.pand g d a b) := encodable_some rfl (rform_lt ..)
theorem Encodable.por (g : Guard) (d a : PReg) (b : PSrc) : Encodable.Statement (.por g d a b) := encodable_some rfl (rform_lt ..)
theorem Encodable.pxor (g : Guard) (d a : PReg) (b : PSrc) : Encodable.Statement (.pxor g d a b) := encodable_some rfl (rform_lt ..)
theorem Encodable.pandn (g : Guard) (d a : PReg) (b : PSrc) : Encodable.Statement (.pandn g d a b) := encodable_some rfl (rform_lt ..)
theorem Encodable.pfrom (g : Guard) (d : PReg) (b : Src) : Encodable.Statement (.pfrom g d b) := encodable_some rfl (rform_lt ..)
theorem Encodable.pto (g : Guard) (d : SReg) (a : PReg) : Encodable.Statement (.pto g d a) := encodable_some rfl (rform_lt ..)
theorem Encodable.mov (g : Guard) (d : SReg) (b : Src) : Encodable.Statement (.mov g d b) := encodable_some rfl (rform_lt ..)
theorem Encodable.liImm (g : Guard) (d : SReg) (imm : BitVec 12) : Encodable.Statement (.liImm g d imm) := encodable_some rfl (rform_lt ..)
theorem Encodable.liBrim (g : Guard) (d : SReg) (b : Brim) : Encodable.Statement (.liBrim g d b) := encodable_some rfl (rform_lt ..)
theorem Encodable.rdsp (g : Guard) (d : SReg) (x : SpecReg) : Encodable.Statement (.rdsp g d x) := encodable_some rfl (rform_lt ..)
theorem Encodable.wrsp (g : Guard) (x : SpecReg) (b : Src) : Encodable.Statement (.wrsp g x b) := encodable_some rfl (rform_lt ..)
theorem Encodable.br (g : Guard) (off : BitVec 18) : Encodable.Statement (.br g off) := encodable_some rfl (rform_lt ..)
theorem Encodable.brcNzOffset (g : Guard) (a : SReg) (off : BitVec 12) : Encodable.Statement (.brcNzOffset g a off) := encodable_some rfl (rform_lt ..)
theorem Encodable.brcNzAbs (g : Guard) (a : SReg) (b : Brim) : Encodable.Statement (.brcNzAbs g a b) := encodable_some rfl (rform_lt ..)
theorem Encodable.brcZOffset (g : Guard) (a : SReg) (off : BitVec 12) : Encodable.Statement (.brcZOffset g a off) := encodable_some rfl (rform_lt ..)
theorem Encodable.brcZAbs (g : Guard) (a : SReg) (b : Brim) : Encodable.Statement (.brcZAbs g a b) := encodable_some rfl (rform_lt ..)
theorem Encodable.jr (g : Guard) (a : SReg) : Encodable.Statement (.jr g a) := encodable_some rfl (rform_lt ..)
theorem Encodable.call (g : Guard) (off : BitVec 18) : Encodable.Statement (.call g off) := encodable_some rfl (rform_lt ..)
theorem Encodable.ret (g : Guard) : Encodable.Statement (.ret g) := encodable_some rfl (rform_lt ..)
theorem Encodable.loop (g : Guard) (off : BitVec 12) (b : Src) : Encodable.Statement (.loop g off b) := encodable_some rfl (rform_lt ..)
theorem Encodable.loopClear (g : Guard) : Encodable.Statement (.loopClear g) := encodable_some rfl (rform_lt ..)
theorem Encodable.done (g : Guard) : Encodable.Statement (.done g) := encodable_some rfl (rform_lt ..)
theorem Encodable.trig (g : Guard) : Encodable.Statement (.trig g) := encodable_some rfl (rform_lt ..)
theorem Encodable.trap (g : Guard) (code : BitVec 18) : Encodable.Statement (.trap g code) := encodable_some rfl (rform_lt ..)
theorem Encodable.sys (g : Guard) (code : BitVec 18) : Encodable.Statement (.sys g code) := encodable_some rfl (rform_lt ..)
theorem Encodable.ldI8 (g : Guard) (d a : SReg) (b : Src) : Encodable.Statement (.ldI8 g d a b) := encodable_some rfl (rform_lt ..)
theorem Encodable.ldN8 (g : Guard) (d a : SReg) (b : Src) : Encodable.Statement (.ldN8 g d a b) := encodable_some rfl (rform_lt ..)
theorem Encodable.ldI16 (g : Guard) (d a : SReg) (b : Src) : Encodable.Statement (.ldI16 g d a b) := encodable_some rfl (rform_lt ..)
theorem Encodable.ldN16 (g : Guard) (d a : SReg) (b : Src) : Encodable.Statement (.ldN16 g d a b) := encodable_some rfl (rform_lt ..)
theorem Encodable.ldI32 (g : Guard) (d a : SReg) (b : Src) : Encodable.Statement (.ldI32 g d a b) := encodable_some rfl (rform_lt ..)
theorem Encodable.ldN32 (g : Guard) (d a : SReg) (b : Src) : Encodable.Statement (.ldN32 g d a b) := encodable_some rfl (rform_lt ..)
theorem Encodable.ld64 (g : Guard) (d a : SReg) (b : Src) : Encodable.Statement (.ld64 g d a b) := encodable_some rfl (rform_lt ..)
theorem Encodable.st8 (g : Guard) (d a : SReg) (b : Src) : Encodable.Statement (.st8 g d a b) := encodable_some rfl (rform_lt ..)
theorem Encodable.st16 (g : Guard) (d a : SReg) (b : Src) : Encodable.Statement (.st16 g d a b) := encodable_some rfl (rform_lt ..)
theorem Encodable.st32 (g : Guard) (d a : SReg) (b : Src) : Encodable.Statement (.st32 g d a b) := encodable_some rfl (rform_lt ..)
theorem Encodable.st64 (g : Guard) (d a : SReg) (b : Src) : Encodable.Statement (.st64 g d a b) := encodable_some rfl (rform_lt ..)
theorem Encodable.ldv (g : Guard) (d : VNum) (a : SReg) (b : Src) : Encodable.Statement (.ldv g d a b) := encodable_some rfl (rform_lt ..)
theorem Encodable.stv (g : Guard) (d : VNum) (a : SReg) (b : Src) : Encodable.Statement (.stv g d a b) := encodable_some rfl (rform_lt ..)
theorem Encodable.ldg (g : Guard) (d : VNum) (a : SReg) (b : VSrc) : Encodable.Statement (.ldg g d a b) := encodable_some rfl (rform_lt ..)
theorem Encodable.stg (g : Guard) (d : VNum) (a : SReg) (b : VSrc) : Encodable.Statement (.stg g d a b) := encodable_some rfl (rform_lt ..)
theorem Encodable.scld (g : Guard) (d : Fin 8) (a : SReg) (b : Src) : Encodable.Statement (.scld g d a b) := encodable_some rfl (rform_lt ..)
theorem Encodable.ldxI8 (g : Guard) (d a : SReg) (b : Src) : Encodable.Statement (.ldxI8 g d a b) := encodable_some rfl (rform_lt ..)
theorem Encodable.ldxN8 (g : Guard) (d a : SReg) (b : Src) : Encodable.Statement (.ldxN8 g d a b) := encodable_some rfl (rform_lt ..)
theorem Encodable.ldxI16 (g : Guard) (d a : SReg) (b : Src) : Encodable.Statement (.ldxI16 g d a b) := encodable_some rfl (rform_lt ..)
theorem Encodable.ldxN16 (g : Guard) (d a : SReg) (b : Src) : Encodable.Statement (.ldxN16 g d a b) := encodable_some rfl (rform_lt ..)
theorem Encodable.ldxI32 (g : Guard) (d a : SReg) (b : Src) : Encodable.Statement (.ldxI32 g d a b) := encodable_some rfl (rform_lt ..)
theorem Encodable.ldxN32 (g : Guard) (d a : SReg) (b : Src) : Encodable.Statement (.ldxN32 g d a b) := encodable_some rfl (rform_lt ..)
theorem Encodable.ldx64 (g : Guard) (d a : SReg) (b : Src) : Encodable.Statement (.ldx64 g d a b) := encodable_some rfl (rform_lt ..)
theorem Encodable.stx8 (g : Guard) (d a : SReg) (b : Src) : Encodable.Statement (.stx8 g d a b) := encodable_some rfl (rform_lt ..)
theorem Encodable.stx16 (g : Guard) (d a : SReg) (b : Src) : Encodable.Statement (.stx16 g d a b) := encodable_some rfl (rform_lt ..)
theorem Encodable.stx32 (g : Guard) (d a : SReg) (b : Src) : Encodable.Statement (.stx32 g d a b) := encodable_some rfl (rform_lt ..)
theorem Encodable.stx64 (g : Guard) (d a : SReg) (b : Src) : Encodable.Statement (.stx64 g d a b) := encodable_some rfl (rform_lt ..)
theorem Encodable.ldxAcq32 (g : Guard) (d a : SReg) (sc : Scope) : Encodable.Statement (.ldxAcq32 g d a sc) := encodable_some rfl (rform_lt ..)
theorem Encodable.ldxAcq64 (g : Guard) (d a : SReg) (sc : Scope) : Encodable.Statement (.ldxAcq64 g d a sc) := encodable_some rfl (rform_lt ..)
theorem Encodable.stxRel32 (g : Guard) (d a : SReg) (sc : Scope) : Encodable.Statement (.stxRel32 g d a sc) := encodable_some rfl (rform_lt ..)
theorem Encodable.stxRel64 (g : Guard) (d a : SReg) (sc : Scope) : Encodable.Statement (.stxRel64 g d a sc) := encodable_some rfl (rform_lt ..)
theorem Encodable.amoAdd32 (g : Guard) (d a : SReg) (b : Src) : Encodable.Statement (.amoAdd32 g d a b) := encodable_some rfl (rform_lt ..)
theorem Encodable.amoAdd64 (g : Guard) (d a : SReg) (b : Src) : Encodable.Statement (.amoAdd64 g d a b) := encodable_some rfl (rform_lt ..)
theorem Encodable.amoMin32 (g : Guard) (d a : SReg) (b : Src) : Encodable.Statement (.amoMin32 g d a b) := encodable_some rfl (rform_lt ..)
theorem Encodable.amoMin64 (g : Guard) (d a : SReg) (b : Src) : Encodable.Statement (.amoMin64 g d a b) := encodable_some rfl (rform_lt ..)
theorem Encodable.amoMax32 (g : Guard) (d a : SReg) (b : Src) : Encodable.Statement (.amoMax32 g d a b) := encodable_some rfl (rform_lt ..)
theorem Encodable.amoMax64 (g : Guard) (d a : SReg) (b : Src) : Encodable.Statement (.amoMax64 g d a b) := encodable_some rfl (rform_lt ..)
theorem Encodable.amoAnd64 (g : Guard) (d a : SReg) (b : Src) : Encodable.Statement (.amoAnd64 g d a b) := encodable_some rfl (rform_lt ..)
theorem Encodable.amoOr64 (g : Guard) (d a : SReg) (b : Src) : Encodable.Statement (.amoOr64 g d a b) := encodable_some rfl (rform_lt ..)
theorem Encodable.amoXor64 (g : Guard) (d a : SReg) (b : Src) : Encodable.Statement (.amoXor64 g d a b) := encodable_some rfl (rform_lt ..)
theorem Encodable.amoSwap32 (g : Guard) (d a : SReg) (b : Src) : Encodable.Statement (.amoSwap32 g d a b) := encodable_some rfl (rform_lt ..)
theorem Encodable.amoSwap64 (g : Guard) (d a : SReg) (b : Src) : Encodable.Statement (.amoSwap64 g d a b) := encodable_some rfl (rform_lt ..)
theorem Encodable.amoCas64 (g : Guard) (d a : SReg) (b : Src) : Encodable.Statement (.amoCas64 g d a b) := encodable_some rfl (rform_lt ..)
theorem Encodable.amoFaddF32 (g : Guard) (d a : SReg) (b : Src) : Encodable.Statement (.amoFaddF32 g d a b) := encodable_some rfl (rform_lt ..)
theorem Encodable.amoFaddF64 (g : Guard) (d a : SReg) (b : Src) : Encodable.Statement (.amoFaddF64 g d a b) := encodable_some rfl (rform_lt ..)
theorem Encodable.nbopAddF32 (g : Guard) (d : VNum) (a : SReg) (b : Src) : Encodable.Statement (.nbopAddF32 g d a b) := encodable_some rfl (rform_lt ..)
theorem Encodable.nbopAddF64 (g : Guard) (d : VNum) (a : SReg) (b : Src) : Encodable.Statement (.nbopAddF64 g d a b) := encodable_some rfl (rform_lt ..)
theorem Encodable.nbopAddI32 (g : Guard) (d : VNum) (a : SReg) (b : Src) : Encodable.Statement (.nbopAddI32 g d a b) := encodable_some rfl (rform_lt ..)
theorem Encodable.nbopAddI64 (g : Guard) (d : VNum) (a : SReg) (b : Src) : Encodable.Statement (.nbopAddI64 g d a b) := encodable_some rfl (rform_lt ..)
theorem Encodable.nbopMaxF32 (g : Guard) (d : VNum) (a : SReg) (b : Src) : Encodable.Statement (.nbopMaxF32 g d a b) := encodable_some rfl (rform_lt ..)
theorem Encodable.nbopMinF32 (g : Guard) (d : VNum) (a : SReg) (b : Src) : Encodable.Statement (.nbopMinF32 g d a b) := encodable_some rfl (rform_lt ..)
theorem Encodable.nbopScaleF32 (g : Guard) (d : VNum) (a : SReg) (b : Src) : Encodable.Statement (.nbopScaleF32 g d a b) := encodable_some rfl (rform_lt ..)
theorem Encodable.nbopScaleF64 (g : Guard) (d : VNum) (a : SReg) (b : Src) : Encodable.Statement (.nbopScaleF64 g d a b) := encodable_some rfl (rform_lt ..)
theorem Encodable.fence (g : Guard) (sc : Scope) : Encodable.Statement (.fence g sc) := encodable_some rfl (rform_lt ..)
theorem Encodable.xfence (g : Guard) (p q : BitVec 6) : Encodable.Statement (.xfence g p q) := encodable_some rfl (rform_lt ..)
theorem Encodable.fenceIo (g : Guard) : Encodable.Statement (.fenceIo g) := encodable_some rfl (rform_lt ..)
theorem Encodable.vadd (g : Guard) (f : VFmt) (d : VNum) (a : VSrc) (b : VOp) : Encodable.Statement (.vadd g f d a b) := encodable_some rfl (rform_lt ..)
theorem Encodable.vsub (g : Guard) (f : VFmt) (d : VNum) (a : VSrc) (b : VOp) : Encodable.Statement (.vsub g f d a b) := encodable_some rfl (rform_lt ..)
theorem Encodable.vmul (g : Guard) (f : VFmt) (d : VNum) (a : VSrc) (b : VOp) : Encodable.Statement (.vmul g f d a b) := encodable_some rfl (rform_lt ..)
theorem Encodable.vfma (g : Guard) (f : FFmt) (d : VNum) (a : VSrc) (b : VOp) : Encodable.Statement (.vfma g f d a b) := encodable_some rfl (rform_lt ..)
theorem Encodable.vcmulC64 (g : Guard) (d : VNum) (a b : VSrc) : Encodable.Statement (.vcmulC64 g d a b) := encodable_some rfl (rform_lt ..)
theorem Encodable.vcmulC32 (g : Guard) (d : VNum) (a : VSrc) (b : VOp) : Encodable.Statement (.vcmulC32 g d a b) := encodable_some rfl (rform_lt ..)
theorem Encodable.vlrec (g : Guard) (single : Bool) (d a b : VNum) : Encodable.Statement (.vlrec g single d a b) := encodable_some rfl (rform_lt ..)
theorem Encodable.vmin (g : Guard) (f : VFmt) (d : VNum) (a : VSrc) (b : VOp) : Encodable.Statement (.vmin g f d a b) := encodable_some rfl (rform_lt ..)
theorem Encodable.vmax (g : Guard) (f : VFmt) (d : VNum) (a : VSrc) (b : VOp) : Encodable.Statement (.vmax g f d a b) := encodable_some rfl (rform_lt ..)
theorem Encodable.vaddS (g : Guard) (f : IFmt) (d : VNum) (a : VSrc) (b : VOp) : Encodable.Statement (.vaddS g f d a b) := encodable_some rfl (rform_lt ..)
theorem Encodable.vsubS (g : Guard) (f : IFmt) (d : VNum) (a : VSrc) (b : VOp) : Encodable.Statement (.vsubS g f d a b) := encodable_some rfl (rform_lt ..)
theorem Encodable.vcmpEq (g : Guard) (f : VFmt) (d : PReg) (a : VSrc) (b : VOp) : Encodable.Statement (.vcmpEq g f d a b) := encodable_some rfl (rform_lt ..)
theorem Encodable.vcmpLt (g : Guard) (f : VFmt) (d : PReg) (a : VSrc) (b : VOp) : Encodable.Statement (.vcmpLt g f d a b) := encodable_some rfl (rform_lt ..)
theorem Encodable.vcmpLe (g : Guard) (f : FFmt) (d : PReg) (a : VSrc) (b : VOp) : Encodable.Statement (.vcmpLe g f d a b) := encodable_some rfl (rform_lt ..)
theorem Encodable.vcvt (g : Guard) (r : RMode) (d : VNum) (a : VSrc) (src dst : VFmt) : Encodable.Statement (.vcvt g r d a src dst) := encodable_some rfl (rform_lt ..)
theorem Encodable.vand (g : Guard) (d : VNum) (a : VSrc) (b : VOp) : Encodable.Statement (.vand g d a b) := encodable_some rfl (rform_lt ..)
theorem Encodable.vor (g : Guard) (d : VNum) (a : VSrc) (b : VOp) : Encodable.Statement (.vor g d a b) := encodable_some rfl (rform_lt ..)
theorem Encodable.vxor (g : Guard) (d : VNum) (a : VSrc) (b : VOp) : Encodable.Statement (.vxor g d a b) := encodable_some rfl (rform_lt ..)
theorem Encodable.vandn (g : Guard) (d : VNum) (a : VSrc) (b : VOp) : Encodable.Statement (.vandn g d a b) := encodable_some rfl (rform_lt ..)
theorem Encodable.vsel (g : Guard) (d : VNum) (a : VSrc) (b : VOp) : Encodable.Statement (.vsel g d a b) := encodable_some rfl (rform_lt ..)
theorem Encodable.vshuf (g : Guard) (d : VNum) (a : VSrc) (b : VOp) : Encodable.Statement (.vshuf g d a b) := encodable_some rfl (rform_lt ..)
theorem Encodable.vbcast (g : Guard) (wide : Bool) (d : VNum) (a : SReg) : Encodable.Statement (.vbcast g wide d a) := encodable_some rfl (rform_lt ..)
theorem Encodable.vred (g : Guard) (d : VNum) (a : VSrc) (src : VFmt) (op : RedOp) : Encodable.Statement (.vred g d a src op) := encodable_some rfl (rform_lt ..)
theorem Encodable.vshl (g : Guard) (wide : Bool) (d : VNum) (a : VSrc) (b : VOp) : Encodable.Statement (.vshl g wide d a b) := encodable_some rfl (rform_lt ..)
theorem Encodable.vshr (g : Guard) (wide : Bool) (d : VNum) (a : VSrc) (b : VOp) : Encodable.Statement (.vshr g wide d a b) := encodable_some rfl (rform_lt ..)
theorem Encodable.vsra (g : Guard) (wide : Bool) (d : VNum) (a : VSrc) (b : VOp) : Encodable.Statement (.vsra g wide d a b) := encodable_some rfl (rform_lt ..)
theorem Encodable.vpack (g : Guard) (d : VNum) (a : VSrc) (src : VFmt) (t : PackFmt) : Encodable.Statement (.vpack g d a src t) := encodable_some rfl (rform_lt ..)
theorem Encodable.vunpack (g : Guard) (d : VNum) (a : VSrc) (dst : VFmt) (t : PackFmt) : Encodable.Statement (.vunpack g d a dst t) := encodable_some rfl (rform_lt ..)
theorem Encodable.vrcp (g : Guard) (wide : Bool) (d : VNum) (a : VSrc) : Encodable.Statement (.vrcp g wide d a) := encodable_some rfl (rform_lt ..)
theorem Encodable.vrsqrt (g : Guard) (wide : Bool) (d : VNum) (a : VSrc) : Encodable.Statement (.vrsqrt g wide d a) := encodable_some rfl (rform_lt ..)
theorem Encodable.vexp2 (g : Guard) (wide : Bool) (d : VNum) (a : VSrc) : Encodable.Statement (.vexp2 g wide d a) := encodable_some rfl (rform_lt ..)
theorem Encodable.vlog2 (g : Guard) (wide : Bool) (d : VNum) (a : VSrc) : Encodable.Statement (.vlog2 g wide d a) := encodable_some rfl (rform_lt ..)
theorem Encodable.vsincos (g : Guard) (wide : Bool) (d : VNum) (a : VSrc) : Encodable.Statement (.vsincos g wide d a) := encodable_some rfl (rform_lt ..)
theorem Encodable.vtanh (g : Guard) (wide : Bool) (d : VNum) (a : VSrc) : Encodable.Statement (.vtanh g wide d a) := encodable_some rfl (rform_lt ..)
theorem Encodable.bnet (g : Guard) (c : Fin 8) (d a : SReg) (b : Src) : Encodable.Statement (.bnet g c d a b) := encodable_some rfl (rform_lt ..)
theorem Encodable.mma (g : Guard) (f : MFmt) (acc : Fin 8) (a : SReg) (b : Src) (sc z : Bool) : Encodable.Statement (.mma g f acc a b sc z) := encodable_some rfl (mform_lt ..)
theorem Encodable.mmaH (g : Guard) (f : MFmt) (acc : Fin 8) (a : SReg) (b : Src) (sc z : Bool) : Encodable.Statement (.mmaH g f acc a b sc z) := encodable_some rfl (mform_lt ..)
theorem Encodable.mmaSd (g : Guard) (half : Bool) (acc : Fin 8) (a : SReg) (b : Src) (z : Bool) : Encodable.Statement (.mmaSd g half acc a b z) := encodable_some rfl (mform_lt ..)
theorem Encodable.sdscan (g : Guard) (acc : Fin 8) (a b : SReg) (half : Bool) : Encodable.Statement (.sdscan g acc a b half) := encodable_some rfl (mform_lt ..)
theorem Encodable.sdgen (g : Guard) (acc : Fin 8) (a : SReg) (b : Src) (basis : Bool) : Encodable.Statement (.sdgen g acc a b basis) := encodable_some rfl (mform_lt ..)
theorem Encodable.mzero (g : Guard) (acc : Fin 8) : Encodable.Statement (.mzero g acc) := encodable_some rfl (mform_lt ..)
theorem Encodable.mld (g : Guard) (acc : Fin 8) (a : SReg) (f : MvFmt) : Encodable.Statement (.mld g acc a f) := encodable_some rfl (mform_lt ..)
theorem Encodable.mst (g : Guard) (acc : Fin 8) (a : SReg) (f : MvFmt) : Encodable.Statement (.mst g acc a f) := encodable_some rfl (mform_lt ..)
theorem Encodable.xftGo (g : Guard) (i : Option SReg) (o : Option Src) : Encodable.Statement (.xftGo g i o) := encodable_some rfl (mform_lt ..)
theorem Encodable.cpy (g : Guard) (d a : SReg) (b : Src) : Encodable.Statement (.cpy g d a b) := encodable_some rfl (rform_lt ..)
theorem Encodable.cpyh (g : Guard) (d a : SReg) (b : Src) : Encodable.Statement (.cpyh g d a b) := encodable_some rfl (rform_lt ..)
theorem Encodable.xpose (g : Guard) : Encodable.Statement (.xpose g) := encodable_some rfl (rform_lt ..)
theorem Encodable.ewr (g : Guard) (e : Eng) (w : Fin 16) (b : Src) : Encodable.Statement (.ewr g e w b) := encodable_some rfl (rform_lt ..)
theorem Encodable.ewrBlk (g : Guard) (e : Eng) (w : Fin 16) (a : SReg) (b : Src) : Encodable.Statement (.ewrBlk g e w a b) := encodable_some rfl (rform_lt ..)
theorem Encodable.ego (g : Guard) (e : Eng) : Encodable.Statement (.ego g e) := encodable_some rfl (rform_lt ..)
theorem Encodable.erd (g : Guard) (d : SReg) (e : Eng) (w : Fin 16) (shadow : Bool) : Encodable.Statement (.erd g d e w shadow) := encodable_some rfl (rform_lt ..)
theorem Encodable.tbinit (g : Guard) (a : SReg) (b : Src) : Encodable.Statement (.tbinit g a b) := encodable_some rfl (rform_lt ..)
theorem Encodable.tbexpect (g : Guard) (a : SReg) (b : Src) : Encodable.Statement (.tbexpect g a b) := encodable_some rfl (rform_lt ..)
theorem Encodable.tbarrive (g : Guard) (a : SReg) (b : Src) : Encodable.Statement (.tbarrive g a b) := encodable_some rfl (rform_lt ..)
theorem Encodable.tbarriveG (g : Guard) (a : SReg) (b : Src) : Encodable.Statement (.tbarriveG g a b) := encodable_some rfl (rform_lt ..)
theorem Encodable.tbwait (g : Guard) (a : SReg) (b : Src) : Encodable.Statement (.tbwait g a b) := encodable_some rfl (rform_lt ..)
theorem Encodable.tbtest (g : Guard) (d a : SReg) : Encodable.Statement (.tbtest g d a) := encodable_some rfl (rform_lt ..)
theorem Encodable.sbset (g : Guard) (b : Src) : Encodable.Statement (.sbset g b) := encodable_some rfl (rform_lt ..)
theorem Encodable.sbarm (g : Guard) (a : SReg) (b : Src) : Encodable.Statement (.sbarm g a b) := encodable_some rfl (rform_lt ..)
theorem Encodable.dbar (g : Guard) (b : Src) : Encodable.Statement (.dbar g b) := encodable_some rfl (rform_lt ..)
theorem Encodable.chsend (g : Guard) (x : ChSrc) (b : Src) : Encodable.Statement (.chsend g x b) := by cases x <;> exact encodable_some rfl (rform_lt ..)
theorem Encodable.chrecv (g : Guard) (x : ChDst) (b : Src) : Encodable.Statement (.chrecv g x b) := by cases x <;> exact encodable_some rfl (rform_lt ..)
theorem Encodable.chtest (g : Guard) (d : SReg) (b : Src) : Encodable.Statement (.chtest g d b) := encodable_some rfl (rform_lt ..)
theorem Encodable.grdCheck (g : Guard) (b : Src) : Encodable.Statement (.grdCheck g b) := encodable_some rfl (rform_lt ..)
theorem Encodable.fmtset (g : Guard) (b : Src) : Encodable.Statement (.fmtset g b) := encodable_some rfl (rform_lt ..)
theorem Encodable.rsave (g : Guard) (a : SReg) (b : Src) : Encodable.Statement (.rsave g a b) := encodable_some rfl (rform_lt ..)
theorem Encodable.rload (g : Guard) (a : SReg) (b : Src) : Encodable.Statement (.rload g a b) := encodable_some rfl (rform_lt ..)
theorem Encodable.mcred (g : Guard) (d : VNum) (a : SReg) (b : Src) : Encodable.Statement (.mcred g d a b) := encodable_some rfl (rform_lt ..)
theorem Encodable.mcst (g : Guard) (d : VSrc) (a : SReg) (b : Src) : Encodable.Statement (.mcst g d a b) := encodable_some rfl (rform_lt ..)
theorem Encodable.bnload (g : Guard) (c : Fin 8) (a : SReg) (b : Src) : Encodable.Statement (.bnload g c a b) := encodable_some rfl (rform_lt ..)
theorem Encodable.sig (g : Guard) (a : SReg) (b : Src) : Encodable.Statement (.sig g a b) := encodable_some rfl (rform_lt ..)
theorem Encodable.sigMax (g : Guard) (a : SReg) (b : Src) : Encodable.Statement (.sigMax g a b) := encodable_some rfl (rform_lt ..)
theorem Encodable.wsig (g : Guard) (a : SReg) (b : Src) : Encodable.Statement (.wsig g a b) := encodable_some rfl (rform_lt ..)
theorem Encodable.qfetch (rd rs1 : XReg) : Encodable.Statement (.qfetch rd rs1) := encodable_some rfl (FWord.toNat_lt _)
theorem Encodable.qfetchAdv (rd rs1 : XReg) : Encodable.Statement (.qfetchAdv rd rs1) := encodable_some rfl (FWord.toNat_lt _)
theorem Encodable.bfext (rd rs1 rs2 : XReg) : Encodable.Statement (.bfext rd rs1 rs2) := encodable_some rfl (FWord.toNat_lt _)
theorem Encodable.sigwait (rd rs1 rs2 : XReg) : Encodable.Statement (.sigwait rd rs1 rs2) := encodable_some rfl (FWord.toNat_lt _)
theorem Encodable.dispatch (rd rs1 rs2 : XReg) : Encodable.Statement (.dispatch rd rs1 rs2) := encodable_some rfl (FWord.toNat_lt _)
theorem Encodable.bundleIssue (c : CoreId) : Encodable.Statement (.bundleIssue c) := encodable_none rfl
theorem Encodable.matrixOpComplete (c : CoreId) : Encodable.Statement (.matrixOpComplete c) := encodable_none rfl
theorem Encodable.contextFree (c : CoreId) (x : CtxId) : Encodable.Statement (.contextFree c x) := encodable_none rfl
theorem Encodable.ptsTick (c : CoreId) (x : CtxId) : Encodable.Statement (.ptsTick c x) := encodable_none rfl
theorem Encodable.randomRefill (c : CoreId) : Encodable.Statement (.randomRefill c) := encodable_none rfl
theorem Encodable.lookaheadStaging (c : CoreId) (w : BitVec 16) : Encodable.Statement (.lookaheadStaging c w) := encodable_none rfl
theorem Encodable.stagingComplete (c : CoreId) (b : Fin 8) : Encodable.Statement (.stagingComplete c b) := encodable_none rfl
theorem Encodable.homeBankAccess (c : CoreId) (k : Nat) (copy : Bool) (evict : Option Nat) : Encodable.Statement (.homeBankAccess c k copy evict) := encodable_none rfl
theorem Encodable.globalReply (c : CoreId) (k : Nat) (v : Word) (err : Bool) : Encodable.Statement (.globalReply c k v err) := encodable_none rfl
theorem Encodable.storeAck (c : CoreId) (k : Nat) : Encodable.Statement (.storeAck c k) := encodable_none rfl
theorem Encodable.guardCommitComplete (c : CoreId) (x : CtxId) : Encodable.Statement (.guardCommitComplete c x) := encodable_none rfl
theorem Encodable.copySectorPerformed (c : CoreId) (tag : BitVec 32) : Encodable.Statement (.copySectorPerformed c tag) := encodable_none rfl
theorem Encodable.helperRowEnd (c : CoreId) (tag : BitVec 32) : Encodable.Statement (.helperRowEnd c tag) := encodable_none rfl
theorem Encodable.xposeRankServed (x : RankServed) (tag : BitVec 32) (q : Nat) (gone : BitVec 8) : Encodable.Statement (.xposeRankServed x tag q gone) := encodable_none rfl
theorem Encodable.xposeSendComplete (c : CoreId) (tag : BitVec 32) : Encodable.Statement (.xposeSendComplete c tag) := encodable_none rfl
theorem Encodable.xftTransformDone (c : CoreId) : Encodable.Statement (.xftTransformDone c) := encodable_none rfl
theorem Encodable.xftComplete (c : CoreId) : Encodable.Statement (.xftComplete c) := encodable_none rfl
theorem Encodable.channelDelivery (d : DieId) (l : Nat) (ch : BitVec 10) : Encodable.Statement (.channelDelivery d l ch) := encodable_none rfl
theorem Encodable.channelCreditReturn (d : DieId) (l : Nat) (ch : BitVec 10) : Encodable.Statement (.channelCreditReturn d l ch) := encodable_none rfl
theorem Encodable.barrierUpdate (k : Nat) : Encodable.Statement (.barrierUpdate k) := encodable_none rfl
theorem Encodable.domainBarrierComplete (d : DieId) (l : Nat) (lev : Fin 8) (idx : Nat) : Encodable.Statement (.domainBarrierComplete d l lev idx) := encodable_none rfl
theorem Encodable.placementDecision (d : DieId) (pick : Nat) : Encodable.Statement (.placementDecision d pick) := encodable_none rfl
theorem Encodable.batchRelease (d : DieId) : Encodable.Statement (.batchRelease d) := encodable_none rfl
theorem Encodable.queueFetch (d : DieId) (q : Fin 64) : Encodable.Statement (.queueFetch d q) := encodable_none rfl
theorem Encodable.nodeStart (d : DieId) (gr : Nat) (n : Nat) : Encodable.Statement (.nodeStart d gr n) := encodable_none rfl
theorem Encodable.save (c : CoreId) : Encodable.Statement (.save c) := encodable_none rfl
theorem Encodable.saveComplete (c : CoreId) : Encodable.Statement (.saveComplete c) := encodable_none rfl
theorem Encodable.invalidationComplete (d : DieId) : Encodable.Statement (.invalidationComplete d) := encodable_none rfl
theorem Encodable.deactivateComplete (d : DieId) : Encodable.Statement (.deactivateComplete d) := encodable_none rfl
theorem Encodable.pageWalk (d : DieId) (asid : BitVec 14) (va : BitVec 55) : Encodable.Statement (.pageWalk d asid va) := encodable_none rfl
theorem Encodable.routerContribution (id rank : Nat) (row : VWord) (gone : RowPassage) : Encodable.Statement (.routerContribution id rank row gone) := encodable_none rfl
theorem Encodable.memberDelivery (x : Delivered) (q : Nat) (gone : BitVec 8) : Encodable.Statement (.memberDelivery x q gone) := encodable_none rfl
theorem Encodable.mcstDelivery (x : Delivered) (q : Nat) (gone : BitVec 8) : Encodable.Statement (.mcstDelivery x q gone) := encodable_none rfl
theorem Encodable.resultLanding (c : CoreId) (k : Nat) : Encodable.Statement (.resultLanding c k) := encodable_none rfl
theorem Encodable.gauntletTimeout (c : CoreId) : Encodable.Statement (.gauntletTimeout c) := encodable_none rfl
theorem Encodable.handlerTimeout (c : CoreId) : Encodable.Statement (.handlerTimeout c) := encodable_none rfl
theorem Encodable.forcedSwitchTimeout (c : CoreId) : Encodable.Statement (.forcedSwitchTimeout c) := encodable_none rfl
theorem Encodable.agingInterval (d : DieId) (q : Fin 64) : Encodable.Statement (.agingInterval d q) := encodable_none rfl
theorem Encodable.remoteAccessArrival (r : RemoteReq) : Encodable.Statement (.remoteAccessArrival r) := encodable_none rfl
theorem Encodable.negativeReply (c : CoreId) (k : Nat) : Encodable.Statement (.negativeReply c k) := encodable_none rfl
theorem Encodable.routeTimeout (c : CoreId) (k : Nat) : Encodable.Statement (.routeTimeout c k) := encodable_none rfl
theorem Encodable.replyTimeout (c : CoreId) (k : Nat) : Encodable.Statement (.replyTimeout c k) := encodable_none rfl
theorem Encodable.linkRetrain (l : Link) : Encodable.Statement (.linkRetrain l) := encodable_none rfl
theorem Encodable.opticalLinkChange (p : Fin 64) (up : Bool) : Encodable.Statement (.opticalLinkChange p up) := encodable_none rfl
theorem Encodable.hostLinkChange (p : Fin 2) (width rate : Fin 4) : Encodable.Statement (.hostLinkChange p width rate) := encodable_none rfl
theorem Encodable.hotReset (p : Fin 2) : Encodable.Statement (.hotReset p) := encodable_none rfl
theorem Encodable.resetPin : Encodable.Statement (.resetPin) := encodable_none rfl
theorem Encodable.powerGood (b : BootRun) : Encodable.Statement (.powerGood b) := encodable_none rfl
theorem Encodable.powerDown : Encodable.Statement (.powerDown) := encodable_none rfl
theorem Encodable.currentWindow (d : DieId) (f : Fin 4) (avg : BitVec 16) : Encodable.Statement (.currentWindow d f avg) := encodable_none rfl
theorem Encodable.visorSample (ft hs : List Nat) : Encodable.Statement (.visorSample ft hs) := encodable_none rfl
theorem Encodable.visorFlush : Encodable.Statement (.visorFlush) := encodable_none rfl
theorem Encodable.patrolScrub (at_ : ScrubAt) (bad : Bool) : Encodable.Statement (.patrolScrub at_ bad) := encodable_none rfl
theorem Encodable.inboundWrite (p : Fin 2) (off : Nat) (bytes : List Byte) (poison : Bool) : Encodable.Statement (.inboundWrite p off bytes poison) := encodable_none rfl
theorem Encodable.inboundRead (p : Fin 2) (off len : Nat) : Encodable.Statement (.inboundRead p off len) := encodable_none rfl
theorem Encodable.inboundAtomicop (p : Fin 2) (op : HostAtomic) (wide : Bool) (off : Nat) (x y : Word) : Encodable.Statement (.inboundAtomicop p op wide off x y) := encodable_none rfl
theorem Encodable.spdmMeasurement (nonce : BitVec 256) : Encodable.Statement (.spdmMeasurement nonce) := encodable_none rfl
theorem Encodable.enqueue (d : DieId) (q : Fin 64) (tail : BitVec 32) : Encodable.Statement (.enqueue d q tail) := encodable_none rfl
theorem Encodable.queueResume (d : DieId) (q : Fin 64) : Encodable.Statement (.queueResume d q) := encodable_none rfl
theorem Encodable.invalidation (d : DieId) (all glob : Bool) (asid : BitVec 14) : Encodable.Statement (.invalidation d all glob asid) := encodable_none rfl
theorem Encodable.activate (d : DieId) (i : BitVec 10) : Encodable.Statement (.activate d i) := encodable_none rfl
theorem Encodable.deactivate (d : DieId) (i : BitVec 10) : Encodable.Statement (.deactivate d i) := encodable_none rfl
theorem Encodable.peakReset (d : DieId) (f : Fin 4) : Encodable.Statement (.peakReset d f) := encodable_none rfl
theorem Encodable.kreqLive (d : DieId) (core : BitVec 8) (x : CtxId) (grp : Bool) : Encodable.Statement (.kreqLive d core x grp) := encodable_none rfl
theorem Encodable.kreqImage (d : DieId) (core : BitVec 8) (x : CtxId) (grp : Bool) (area : BitVec 36) : Encodable.Statement (.kreqImage d core x grp area) := encodable_none rfl
theorem Encodable.pctlReq (c : CoreId) (area : BitVec 52) : Encodable.Statement (.pctlReq c area) := encodable_none rfl
theorem Encodable.pctlForce (c : CoreId) (area : BitVec 52) : Encodable.Statement (.pctlForce c area) := encodable_none rfl
theorem Encodable.resume (c : CoreId) : Encodable.Statement (.resume c) := encodable_none rfl
theorem Encodable.advance (c : CoreId) : Encodable.Statement (.advance c) := encodable_none rfl
theorem Encodable.kill (c : CoreId) (kcode : BitVec 8) : Encodable.Statement (.kill c kcode) := encodable_none rfl
theorem Encodable.switch (c : CoreId) : Encodable.Statement (.switch c) := encodable_none rfl
theorem Encodable.replay (c : CoreId) (tag : BitVec 32) : Encodable.Statement (.replay c tag) := encodable_none rfl
theorem Encodable.abandon (c : CoreId) (tag : BitVec 32) : Encodable.Statement (.abandon c tag) := encodable_none rfl
theorem Encodable.tqheadWrite (cl : ClusterId) (v : Word) : Encodable.Statement (.tqheadWrite cl v) := encodable_none rfl
theorem Encodable.windowWrite (c : CoreId) (off : BitVec 24) (v : Word) : Encodable.Statement (.windowWrite c off v) := encodable_none rfl
theorem Encodable.visor : Encodable.Statement (.visor) := encodable_none rfl
theorem Encodable.attest : Encodable.Statement (.attest) := encodable_none rfl
theorem Encodable.stage : Encodable.Statement (.stage) := encodable_none rfl
theorem Encodable.commit : Encodable.Statement (.commit) := encodable_none rfl
theorem Encodable.handlerCommitPoint : Encodable.Statement (.handlerCommitPoint) := encodable_none rfl
theorem Encodable.routine : Encodable.Statement (.routine) := encodable_none rfl
theorem Encodable.keyload : Encodable.Statement (.keyload) := encodable_none rfl
theorem Encodable.keyclear : Encodable.Statement (.keyclear) := encodable_none rfl
theorem Encodable.keyexch : Encodable.Statement (.keyexch) := encodable_none rfl
theorem Encodable.reset : Encodable.Statement (.reset) := encodable_none rfl
theorem Encodable.mailboxOther (cmd : BitVec 8) : Encodable.Statement (.mailboxOther cmd) := encodable_none rfl
theorem Encodable.registerWrite (d : DieId) (off : BitVec 24) (v : Word) : Encodable.Statement (.registerWrite d off v) := encodable_none rfl
theorem Encodable.supplyDroop (d : DieId) (f : Fin 4) (mv : Nat) : Encodable.Statement (.supplyDroop d f mv) := encodable_none rfl
theorem Encodable.powerLoss : Encodable.Statement (.powerLoss) := encodable_none rfl
theorem Encodable.helperFault (c : CoreId) (tag : BitVec 32) : Encodable.Statement (.helperFault c tag) := encodable_none rfl
theorem Encodable.contributionRead (d : DieId) (r : ContribReq) : Encodable.Statement (.contributionRead d r) := encodable_none rfl

end Sys2Proof.Laws
end

