-- ==== Sys2Proof/Tests/Slice0.lean ====
section
/-!
SUPPORT. Sys2Proof/Tests/Slice0.lean: the refused forms, decoding of words written out from the encodings of R55, R60, R61 and R352, single steps with
results computed by hand from the rules, and, for each statement with hypotheses, states and operands that meet them.
-/
namespace Sys2Proof.Tests
open Sys2Proof Sys2Proof.Machine Sys2Proof.Claims
set_option maxRecDepth 20000

/-! ### Ill-formed terms, one for each check of Sys2Proof/WellFormed.lean (R64, R86, R111, R117, R133 to R136, R144, R226, R386) -/

theorem test_wf_wrsp : (Instr.wrsp .always .task (.reg 1)).wf = false := by decide
theorem test_wf_loop : (Instr.loop .always 0 (.reg 1)).wf = false := by decide
theorem test_wf_xfence : (Instr.xfence .always 0 1).wf = false ∧ (Instr.xfence .always 1 0).wf = false := by decide
theorem test_wf_vlrec : (Instr.vlrec .always true 0 1 2).wf = false ∧ (Instr.vlrec .always true 0 2 1).wf = false := by decide
theorem test_wf_vred : (Instr.vred .always 0 .zero .f32 .sumS).wf = false ∧ (Instr.vred .always 0 .zero .i32 .sumS).wf = true := by decide
theorem test_wf_vpack : (Instr.vpack .always 0 .zero .f64 .sx3).wf = false ∧ (Instr.vpack .always 0 .zero .i32 .q).wf = true := by decide
theorem test_wf_vunpack : (Instr.vunpack .always 0 .zero .f32 .q).wf = false ∧ (Instr.vunpack .always 0 .zero .bf16 .sx8).wf = true := by decide
theorem test_wf_vsincos : (Instr.vsincos .always false 31 .zero).wf = false := by decide
theorem test_wf_mma : (Instr.mma .always .bf16 0 0 (.reg 1) true false).wf = false ∧ (Instr.mma .always .q4 0 0 (.reg 1) true false).wf = true := by decide
theorem test_wf_mmaH : (Instr.mmaH .always .f64 0 0 (.reg 1) true false).wf = false := by decide
theorem test_wf_sdscan : (Instr.sdscan .always 0 0 63 false).wf = false := by decide
theorem test_wf_sdgen : (Instr.sdgen .always 0 1 (.reg 1) false).wf = false := by decide
theorem test_wf_ewrBlk : (Instr.ewrBlk .always .copy 0 0 (.reg 1)).wf = false := by decide
theorem test_wf_mcred : (Instr.mcred .always 0 1 (.reg 1)).wf = false ∧ (Instr.mcred .always 0 0 (.reg 1)).wf = false := by decide
/-- An ill-formed word is refused: `wrsp %task` (R86), pred 25 (R63), a reserved shape (R66), register field 24 of a predicate (R64). -/
theorem test_refuse_words : (decodeWord .a (0x53 * 2 ^ 25 + 2 * 2 ^ 13)).toOption = none ∧ (decodeWord .a (25 * 2 ^ 20)).toOption = none ∧
    (decodeWord .a (7 * 2 + 1)).toOption = none ∧ (decodeWord .a (0x40 * 2 ^ 25 + 24 * 2 ^ 13)).toOption = none := by decide

/-! ### Words -/

theorem test_word_add : decodeWord .a 0x0000A301 = .ok (.add .always 5 6 (.lit ⟨0, .i32⟩)) := rfl
theorem test_word_branch : decodeWord .b 0xC0000004 = .ok (.br .always 2) := rfl
theorem test_word_ldn32 : decodeWord .l 0x0A00E291 = .ok (.ldN32 .always 7 5 (.lit ⟨1, .i32⟩)) := rfl
theorem test_word_release : decodeWord .k 0x5C00848A = .ok (.stxRel64 .always 4 9 .grp) := rfl
theorem test_word_xfence : decodeWord .k 0x92008080 = .ok (.xfence .always 4 1) := rfl
theorem test_word_vadd : decodeWord .v 0x02302106 = .ok (.vadd (.on 2 false) .f32 1 (.reg 2) (.src (.reg 3))) := rfl
theorem test_word_vrcp : decodeWord .x 0xC0002100 = .ok (.vrcp .always false 1 (.reg 2)) ∧ decodeWord .v 0xC0002100 = .error .illegalOp := ⟨rfl, rfl⟩
theorem test_word_mmasd : decodeWord .m 0x800000C1 = .ok (.mmaSd .always false 0 0 (.reg 12) true) := rfl
theorem test_word_erd : decodeWord .e 0x0A00AF80 = .ok (.erd .always 5 .xft 15 false) ∧ decodeWord .e 0x0A00AF82 = .ok (.erd .always 5 .xft 15 true) := ⟨rfl, rfl⟩
theorem test_word_streams : decodeWord .e 0xAA000201 = .ok (.rsave .always 4 (.lit ⟨0, .i32⟩)) ∧
    decodeWord .e 0xAC000201 = .ok (.rload .always 4 (.lit ⟨0, .i32⟩)) := ⟨rfl, rfl⟩
theorem test_word_barriers : decodeWord .e 0x6A000005 = .ok (.sbset .always (.lit ⟨0, .w64⟩)) ∧
    decodeWord .e 0x6E000001 = .ok (.dbar .always (.lit ⟨0, .i32⟩)) := ⟨rfl, rfl⟩
theorem test_word_channels : decodeWord .e 0xA0002181 = .ok (.chsend .always (.vector (.reg 3)) (.lit ⟨0, .i32⟩)) ∧
    decodeWord .e 0xA2006081 = .ok (.chrecv .always (.vector 3) (.lit ⟨0, .i32⟩)) := ⟨rfl, rfl⟩
theorem test_word_mcst : decodeWord .e 0xB0008500 = .ok (.mcst .always (.reg 4) 10 (.reg 0)) := rfl
theorem test_word_qfetch : decodeWord .front 0x0005050B = .ok (.qfetch 10 10) := rfl
/-- A crown: marker, slot A, one brim word, safe (R56). -/
theorem test_crown : decodeCrown 0xF8098000 = .ok ⟨1, 1, true⟩ ∧ decodeCrown 0xF8090001 = .error .badCrown ∧ (⟨1, 1, true⟩ : Crown).len = 3 := ⟨rfl, rfl, rfl⟩
theorem test_table_word : decodeTableWord 32 0x0000A301 = some (.add .always 5 6 (.lit ⟨0, .i32⟩)) := by decide

/-! ### States -/

/-- Reset with a change of core 0, whose context 0 issues. -/
def onCore (f : Core → Core) : State := State.reset.mapCore 0 f
def onCtx (f : Ctx → Ctx) : State := State.reset.mapCtx 0 0 f
def onDie (f : Die → Die) : State := State.reset.mapDie 0 f
/-- Scalars 1 and 2 hold values, predicate 23 is set in bit 0. -/
def regs (a b : Word) : State := onCtx fun k => { k with s := (k.s.set 1 a).set 2 b, p := k.p.set 23 1 }
/-- Words of 8 bytes at addresses of memory. -/
def withWords (s : State) (l : List (Nat × Nat)) : State := l.foldl (fun t e => { t with mem := Memory.write t.mem e.1 8 e.2 }) s
/-- Page tables at 0x10000 up: page 1 maps HBM, page 2 the scratchpad of core 0, page 3 sealed HBM (R278). -/
def paged (s : State) : State := withWords s [(0, 2 ^ 63 + 0x10000), (0x10000, 2 ^ 63 + 0x20000), (0x20000, 2 ^ 63 + 0x30000),
  (0x30008, 3 * 2 ^ 62 + 0x40000), (0x30010, 3 * 2 ^ 62 + 4 * 2 ^ 59 + 2 * 2 ^ 56 + 0x10000000000), (0x30018, 3 * 2 ^ 62 + 2 ^ 58 + 0x40000)]

theorem test_step_placed : (match step (State.reset.withFetchWord 32 0x0000A301) with | .next t => t.tick | _ => 7) = 1 := by decide
/-- A register of the one in-flight result of a step of exec. -/
def inflightOf (o : Out) : List (Dest × Nat × Option Nat) :=
  match o with
  | .next t => t.me.inflight.map fun e => (e.dest, e.due, e.val.map (·.toNat))
  | _ => []
theorem test_add_wraps : inflightOf (exec (.add .always 3 1 (.reg 2)) (regs 0xFFFFFFFFFFFFFFFF 2)) = [(.s 3, 1, some 1)] := by decide
theorem test_mulh_negative : inflightOf (exec (.mulh .always 3 1 (.reg 2)) (regs 0xFFFFFFFFFFFFFFFF 1)) = [(.s 3, 3, some (2 ^ 64 - 1))] := by decide
theorem test_div_zero : inflightOf (exec (.div .always 3 1 (.reg 2)) (regs 5 0)) = [(.s 3, 24, some (2 ^ 64 - 1))] := by decide
theorem test_rem_sign : inflightOf (exec (.rem .always 3 1 (.reg 2)) (regs 0xFFFFFFFFFFFFFFF9 2)) = [(.s 3, 24, some (2 ^ 64 - 1))] := by decide
theorem test_adds_clamps : inflightOf (exec (.addS .always 3 1 (.reg 2)) (regs 0x7FFFFFFFFFFFFFFF 1)) = [(.s 3, 1, some (2 ^ 63 - 1))] := by decide
theorem test_shift_mod : inflightOf (exec (.shl .always 3 1 (.reg 2)) (regs 1 65)) = [(.s 3, 1, some 2)] := by decide
theorem test_bfx_sign : inflightOf (exec (.bfx .always 3 1 (.reg 2)) (regs 0xF0 0x404)) = [(.s 3, 1, some (2 ^ 64 - 1))] := by decide
theorem test_write_s0 : inflightOf (exec (.add .always 0 1 (.reg 2)) (regs 1 2)) = [] := by decide
theorem test_guard_off : inflightOf (exec (.add (.on 23 true) 3 1 (.reg 2)) (regs 1 2)) = [] := by decide

/-! ### States that meet the hypotheses of the statements -/

theorem wit_reset_zeroOk : State.reset.zeroOk := by
  intro c x
  simp [State.ctx, State.core, Core.ctx, State.reset, Core.reset, Ctx.reset]
theorem wit_MemoryStaysCanonical : State.reset.memOk ∧ ∃ t, step State.reset = .next t := ⟨rfl, _, rfl⟩
theorem wit_RegisterZeroStays : State.reset.zeroOk ∧ ∃ t, step State.reset = .next t := ⟨wit_reset_zeroOk, _, rfl⟩
theorem wit_DecodeOfEncode : (Instr.xfence (.on 23 true) 63 63).wf = true ∧
    encode (.xfence (.on 23 true) 63 63) = some (.l, 0x49 * 2 ^ 25 + 24 * 2 ^ 20 + 2 ^ 19 + 63 * 2 ^ 13 + 63 * 2 ^ 7) := ⟨rfl, rfl⟩
theorem wit_StepRunsDecoded : ({ State.reset with agenda := [Instr.resetPin] }).agenda = .resetPin :: [] ∧
    ({ State.reset with frontWords := [0x0005050B#32] }).frontWords = 0x0005050B :: [] ∧ State.reset.agenda = [] ∧
    ((State.reset.die State.reset.hart.1).harts[State.reset.hart.2]).stall = none ∧ decodeWord .front (0x0005050B#32).toNat = .ok (.qfetch 10 10) ∧
    0x0005050B < 2 ^ 32 := ⟨rfl, rfl, rfl, rfl, rfl, by decide⟩
theorem wit_SlotIsExec : IsSlot (.vrcp .always true 31 .lane) := ⟨.x, _, rfl, by decide⟩
/-- A guard that holds, unpredicated and predicated, and one that does not (R63). -/
theorem wit_guard : State.reset.guard .always = true ∧ (regs 1 2).guard (.on 23 false) = true ∧ (regs 1 2).guard (.on 23 true) = false := by decide
theorem wit_ArithmeticResults : (regs 1 2).guard (.on 23 false) = true ∧ (arithmetic .always 3 1 (.reg 2) 1 2).length = 7 := by decide
theorem wit_Saturating : (regs 0x7FFFFFFFFFFFFFFF 1).guard .always = true ∧ (saturating .always 3 1 (.reg 2) 1 2).length = 4 := by decide
/-- `bfx` with pos 63 and length 127: L = 1 (R102). -/
theorem wit_UnaryAndFieldResults : (regs 1 0x7F3F).guard .always = true ∧ 63 = ((regs 1 0x7F3F).opB (.reg 2)).toNat % 64 ∧
    1 = min (((regs 1 0x7F3F).opB (.reg 2)).toNat / 256 % 128) (64 - 63) := by decide
theorem wit_PredicateAndSpecialMoves : State.reset.me.unsettled State.reset.issue.ctx (.spec .pts) = false ∧
    (((regs 0 6).opB (.reg 2)).toNat / 2 % 4 = 3) ∧ (((regs 0 24).opB (.reg 2)).toNat / 8 % 4 = 3) := by decide
/-- A two-word bundle at word 0 with a marked end bundle at word 3. -/
def looping : State := { onCore (fun k => { k with imap := [3] }) with issue := { State.reset.issue with len := 2 } }
theorem wit_GuardFalse : scalarGuard (.wsig (.on 0 false) 1 (.reg 2)) = some (.on 0 false) ∧ State.reset.guard (.on 0 false) = false ∧
    matrixGuard (.mst (.on 0 false) 7 1 .raw) = some (.on 0 false, 7) ∧ (onCtx fun k => { k with accMask := 128 }).my.accMask.getLsbD 7 = true ∧
    (onCtx fun k => { k with accMask := 128 }).guard (.on 0 false) = false ∧ looping.loopFault 3 = none := by
  refine ⟨rfl, by decide, rfl, by decide, by decide, ?_⟩
  decide
/-- One known result in flight. -/
def flying (d : Dest) : State := onCore fun k => { k with inflight := [⟨0, d, 0, 1, false, false, some 5, none, none, []⟩] }
theorem wit_LandingWritesOneRegister : ((flying (.s 63)).core 0).inflight[0]? = some ⟨0, .s 63, 0, 1, false, false, some 5, none, none, []⟩ ∧
    ((flying (.spec .rseed)).core 0).inflight[0]? = some ⟨0, .spec .rseed, 0, 1, false, false, some 5, none, none, []⟩ := by decide
theorem wit_OperandsAndResults : State.reset.me.inflight = [] ∧ (63 : SReg) ≠ 0 ∧ (1 : Nat) ≤ 1 ∧
    (State.reset.issue.brim.getD 0 0 : Word32) = 0 := by decide
/-- A context that runs a bundle: the given words from word 0 of instruction memory, which is marked. -/
def running (c : CoreId) (ws : List Word32) : State :=
  State.reset.mapCore c fun k =>
    ({ k with running := some 0, imap := [0], imem := ws.zipIdx.map fun (w, i) => (i, w) }).mapCtx 0 fun y => { y with st := .running }
theorem wit_Quiet : Quiet (running 0 [0xF8080000, 0]) 0 0 := 
  (by constructor <;> decide)
def addWords : List Word32 := [0xF8080000, 3 * 2 ^ 13 + 1 * 2 ^ 7 + 2 * 2]
theorem wit_BundleCommits : (((running 0 addWords).mapCore 0 fun k => k.enter 0).core 0).fetch 0 = .ok (⟨1, 0, false⟩, addWords) ∧
    ((((running 0 addWords).mapCore 0 fun k => k.enter 0).openBundle 0 0 ⟨1, 0, false⟩ addWords).bundleCheck ⟨1, 0, false⟩ (slotWords ⟨1, 0, false⟩ addWords)) = none ∧
    ((((running 0 addWords).mapCore 0 fun k => k.enter 0).openBundle 0 0 ⟨1, 0, false⟩ addWords).judge
      ((slotWords ⟨1, 0, false⟩ addWords).filterMap fun w => w.get.map fun i => (slotNo w.kind, i))) = .commit := ⟨rfl, by decide, rfl⟩
theorem wit_AddBundle : (3 : SReg) ≠ 0 ∧ ((running 0 addWords).core 0).mtx = none ∧ ((running 0 addWords).core 0).xft = none ∧
    ((running 0 addWords).core 0).patPend = [] ∧ ((running 0 addWords).core 0).mitten = [] ∧ ((running 0 addWords).ctx 0 0).replay = none ∧
    ((running 0 addWords).ctx 0 0).via = none ∧ ((running 0 addWords).ctx 0 0).loop.count = 0 ∧ ((running 0 addWords).ctx 0 0).grd = false ∧
    ((running 0 addWords).ctx 0 0).pc.toNat = 4 * 0 ∧ 0 ∈ ((running 0 addWords).core 0).imap ∧
    ((running 0 addWords).core 0).iword 0 = (⟨1, 0, false⟩ : Crown).encode ∧
    encode (.add .always 3 1 (.reg 2)) = some (.a, (((running 0 addWords).core 0).iword 1).toNat) := by
  and_intros <;> first | decide | rfl
theorem wit_AddBundle_zero : (running 0 addWords).zeroOk := by
  intro c x
  simp only [running, State.ctx, State.core_mapCore]
  split
  · rename_i h; subst h
    simp [Core.ctx, Core.mapCtx, Core.setCtx, State.core, State.reset, Core.reset, Vector.getElem_set]
    split <;> simp [Ctx.reset]
  · exact wit_reset_zeroOk c x
theorem wit_NoOtherStops : (∀ c, Instr.resetPin ≠ .bundleIssue c) ∧ State.reset.coreEnabled 47 = true ∧ 6 ≤ (48 : CoreId).val / 8 % 8 ∧
    State.reset.coreEnabled 48 = false := ⟨fun _ h => (nomatch h), by and_intros <;> decide⟩
theorem wit_ControlTransfers : ({ State.reset.issue with jump := some 8 }).jump = some 8 ∧
    (State.reset.issue.jump = none ∧ State.reset.issue.loopSet = none ∧ ({ Ctx.reset with loop := ⟨0, 0, 1⟩ }).loop.count ≠ 0 ∧
      ({ Ctx.reset with loop := ⟨0, 0, 1⟩ }).loop.endw.toNat = State.reset.issue.pc.toNat / 4) ∧
    (Ctx.reset.loop.count = 0 ∧ ({ Ctx.reset with loop := ⟨7, 0, 1⟩ }).loop.endw.toNat ≠ State.reset.issue.pc.toNat / 4 ∧
      ({ State.reset.issue with loopSet := some LoopState.zero }).loopSet ≠ none) := by decide
theorem ok_of {ε α : Type} {e : Except ε α} {a : α} (h : e.toOption = some a) : e = .ok a := by
  cases e <;> simp_all [Except.toOption]
/-- A core with no transform in progress and no unordered write: its scratchpad is current (R179, R228). -/
theorem current_of {s : State} {q : Path} {c : CoreId} {a n : Nat} (hx : (s.core c).xft = none) (hr : (s.core c).recent = []) (hm : (s.core c).mtx = none)
    (hp : s.poison = []) : Current s q c a n := by
  simp [Current, Core.xftOpen, Core.openFor, Core.storing, meeting, hx, hr, hm, hp]
/-- One store of context 0 that is not performed. -/
def anAccess (kind : AccKind) (pa : Nat) (performed : Bool) : Access := ⟨0, 0, 0, 0, 0, 8, kind, 8, pa, .hbm, true, false, false, 0, [], 5, 0, 0, 0, 0, performed, false, 0⟩
def storing : State := onCore fun k => { k with accesses := [anAccess .store 0x40000 false], nextAcc := 1 }
def guarded : State := onCtx fun k => { k with grd := true }
theorem wit_LoopAndTaskSlots : ((1 : BitVec 12).toNat < looping.issue.len) ∧ (looping.issue.len ≤ (2 : BitVec 12).toNat ∧ looping.me.marked (looping.issue.pc.toNat / 4 + 2) = false) ∧
    (looping.issue.len ≤ (3 : BitVec 12).toNat ∧ looping.me.marked (looping.issue.pc.toNat / 4 + 3) = true ∧ looping.guard .always = true) ∧
    (0 < ((regs 0 1).opB (.reg 2)).toNat % 2 ^ 32 ∧ ((regs 0 0x100000000).opB (.reg 2)).toNat % 2 ^ 32 = 0) ∧
    (storing.my.grd = false ∧ storing.unperformed .die = true ∧ State.reset.unperformed .die = false ∧ guarded.my.grd = true ∧ guarded.guard .always = true) := by decide
/-- The last aligned unit of the scratchpad, and the faults past and within it (R197, R198). -/
theorem wit_ScratchpadLoads : ((regs 0x1FFFF8 0).guard .always = true ∧ 0x1FFFF8 = ((regs 0x1FFFF8 0).opA 1 + (regs 0x1FFFF8 0).opB (.reg 2)).toNat ∧ 0x1FFFF8 % 8 = 0 ∧
      0x1FFFF8 + 8 ≤ 0x200000 ∧ Current (regs 0x1FFFF8 0) .core 0 0x1FFFF8 8) ∧
    (0x200000 < ((regs 0x1FFFF9 0).opA 1 + (regs 0x1FFFF9 0).opB (.reg 2)).toNat + 8) ∧
    (((regs 1 0).opA 1 + (regs 1 0).opB (.reg 2)).toNat + 8 ≤ 0x200000 ∧ ((regs 1 0).opA 1 + (regs 1 0).opB (.reg 2)).toNat % 8 ≠ 0) ∧
    (regs 1 0).guard (.on 23 true) = false := by unfold Current; decide
theorem wit_ScratchpadStores : (regs 0x1FFFF8 0).guard .always = true ∧ 0x1FFFF8 = ((regs 0x1FFFF8 0).opA 1 + (regs 0x1FFFF8 0).opB (.reg 2)).toNat ∧
    0x1FFFF8 % 8 = 0 ∧ 0x1FFFF8 + 8 ≤ 0x200000 ∧ State.reset.issue.acqWait = [] ∧ (State.reset.mapIssue fun i => { i with acqWait := [0] }).issue.acqWait ≠ [] ∧ State.reset.memOk :=
  ⟨by decide, by decide, by decide, by decide, rfl, by decide, rfl⟩
/-- A trap queue with a free place, and a full one. -/
def aRecord : Record := ⟨0, 0, 0, 1, 0, 0x11, 8, 0, 0, 0⟩
def fullQueue (s : State) : State := s.setTrapQ 0 ⟨List.replicate 32 aRecord, 0, 32, 32, 0⟩
theorem wit_SlotFaultRecord : (State.reset.trapQ State.reset.issue.core.cluster).records.length < 32 ∧
    32 ≤ ((fullQueue State.reset).trapQ (fullQueue State.reset).issue.core.cluster).records.length := by decide
theorem wit_VectorScratchpad : (∀ a n, Current (regs 0x1FFFC0 4) .core 0 a n) ∧ (regs 0 4).my.s[(2 : SReg)].getLsbD 32 = false ∧ ((regs 0 4).opB (.reg 2)).toNat % 4 = 0 ∧
    (∀ l < 64, ((regs 0 4).active .always).getLsbD l = true → (0 + 4 * l) % 4 = 0 ∧ 0 + 4 * l + 4 ≤ 0x200000) ∧
    (regs 0 4).guard .always = true ∧ (regs 0x1FFFC0 0).opA 1 = 0x1FFFC0 ∧ 0x1FFFC0 % 64 = 0 ∧ 0x1FFFC0 + 64 ≤ 0x200000 :=
  ⟨fun _ _ => current_of (by decide) (by decide) (by decide) (by decide), by and_intros <;> decide⟩
/-- What the tables of `paged` map, as the die keeps it. -/
def page1 : Kept := ⟨0, 0x10000, 0x10000, 0x40000, .hbm, false, 0, false⟩
def page2 : Kept := ⟨0, 0x20000, 0x10000, 0x10000000000, .onchip, false, 2, false⟩
def page3 : Kept := ⟨0, 0x30000, 0x10000, 0x40000, .hbm, true, 0, false⟩
def mapped (s : State) : State := (paged s).mapDie 0 fun d => { d with tlb := [page1, page2, page3] }
theorem wit_GlobalLoadsAndStores : (mapped (regs 0x10008 0)).guard .always = true ∧ Accessible (mapped (regs 0x10008 0)) 0x10008 8 page1 ∧
    (mapped (regs 0x10008 0)).opA 1 + (mapped (regs 0x10008 0)).opB (.reg 2) = 0x10008 ∧ (mapped (regs 0x10008 0)).opA 1 = 0x10008 ∧ page1.isSealed = false ∧
    physOf (mapped (regs 0x10008 0)) 0x10008 page1 = 0x40008 ∧ (mapped (regs 0x10008 0)).ownSpad 0x40008 = none ∧ (mapped (regs 0x10008 0)).my.grd = false :=
  ⟨by decide, ⟨⟨by decide, ok_of (by decide), by decide, rfl, rfl⟩, by decide, by decide⟩, by decide, by decide, rfl, by and_intros <;> decide⟩
/-- The own scratchpad through the tables, a load under a guard, and a release with and without an earlier store outstanding. -/
theorem wit_GlobalLoadsAndStores_own : Accessible (mapped (regs 0x20008 0)) 0x20008 8 page2 ∧ page2.isSealed = false ∧
    (mapped (regs 0x20008 0)).ownSpad (physOf (mapped (regs 0x20008 0)) 0x20008 page2) = some 8 ∧ Current (mapped (regs 0x20008 0)) .core 0 8 8 ∧
    (mapped guarded).my.grd = true ∧ Accessible (mapped guarded) 0x10008 8 page1 ∧ (mapped storing).unperformed .clu = true ∧
    Accessible (mapped storing) 0x10008 8 page1 ∧ (mapped (regs 0 0)).unperformed .grp = false :=
  ⟨⟨⟨by decide, ok_of (by decide), by decide, rfl, rfl⟩, by decide, by decide⟩, rfl, by decide, current_of (by decide) (by decide) (by decide) (by decide), by decide,
    ⟨⟨by decide, ok_of (by decide), by decide, rfl, rfl⟩, by decide, by decide⟩, by decide, ⟨⟨by decide, ok_of (by decide), by decide, rfl, rfl⟩, by decide, by decide⟩, by decide⟩
/-- Context 0 has waited for the walk of an address. -/
def walked (k : Option Kept) : State := onCore fun y => { y with walked := [⟨0, 0, 0x10008, k, 0x14, 1⟩] }
theorem wit_TranslationChecks : 2 ^ 55 ≤ (0x80000000000000 : Word).toNat ∧ (0x10001 : Word).toNat < 2 ^ 55 ∧ (0x10001 : Word).toNat % 8 ≠ 0 ∧ (0x30008 : Word).toNat % 8 = 0 ∧
    Mapped (mapped State.reset) 0x30008 page3 ∧ (mapped State.reset).slotTranslate (0x30008 : Word).toNat ((mapped State.reset).useNo 32) = .ok page3 ∧
    (walked (some page1)).walkedFor (0x10008 : Word).toNat = some ⟨0, 0, 0x10008, some page1, 0x14, 1⟩ ∧
    (walked none).walkedFor (0x10008 : Word).toNat = some ⟨0, 0, 0x10008, none, 0x14, 1⟩ ∧ State.reset.issue.noWalk = false ∧
    State.reset.walkedFor (0x10008 : Word).toNat = none ∧ (State.reset.die 0).tlb.filter (fun j => j.covers State.reset.asid (0x10008 : Word).toNat) = [] :=
  ⟨by decide, by decide, by decide, by decide, ⟨by decide, ok_of (by decide), by decide, rfl, rfl⟩, ok_of (by decide), by decide, by decide, rfl, by decide, by decide⟩
theorem wit_AtomicsAndNearBank : (mapped (regs 0x10000 0)).guard .always = true ∧ (mapped (regs 0x10000 0)).my.grd = false ∧
    Accessible (mapped (regs 0x10000 0)) 0x10000 256 page1 ∧ Accessible (mapped (regs 0x10000 0)) 0x10000 8 page1 ∧ page1.isSealed = false ∧
    page1.cls ∈ [MemClass.hbm, .tier] ∧ page1.cls ∈ [MemClass.hbm, .tier, .remote] ∧ (mapped (regs 0x10000 0)).opA 1 = 0x10000 ∧
    (mapped storing).unperformed .pkg = true ∧ (mapped (regs 0x10000 0)).unperformed .pkg = false ∧
    (mapped (regs 0x10000 0)).me.accesses = [] ∧ ((mapped (regs 0x10000 0)).opB (.reg 2)).toNat ≤ (mapped (regs 0x10000 0)).memRead (physOf (mapped (regs 0x10000 0)) 0x10000 page1) 8 ∧
    (mapped (regs 0x10000 1)).memRead (physOf (mapped (regs 0x10000 1)) 0x10000 page1) 8 < ((mapped (regs 0x10000 1)).opB (.reg 2)).toNat ∧ guarded.my.grd = true :=
  ⟨by decide, by decide, ⟨⟨by decide, ok_of (by decide), by decide, rfl, rfl⟩, by decide, by decide⟩, ⟨⟨by decide, ok_of (by decide), by decide, rfl, rfl⟩, by decide, by decide⟩, rfl, by and_intros <;> decide⟩
/-- An operation of the matrix unit in progress for context 0. -/
def multiplying : State := onCore fun k => { k with mtx := some ⟨0, 64, some 0, List.replicate 64 1, false, none, none, [], [], none, 0⟩ }
theorem wit_Fences : State.reset.guard .always = true ∧ (∀ a ∈ State.reset.me.accesses, a.ctx = State.reset.issue.ctx → isStore a.kind = true → a.isOpen = false) ∧
    guarded.my.grd = true ∧ State.reset.me.accesses = [] ∧ State.reset.me.mtx = none ∧ multiplying.me.accesses = [] ∧ multiplying.me.mtx ≠ none ∧ (4 : BitVec 6).getLsbD 2 = true ∧
    (∃ a ∈ storing.me.accesses, a.ctx = storing.issue.ctx ∧ isNb a.kind = false ∧ a.isOpen = true) ∧
    (∃ a ∈ (onCore fun k => { k with accesses := [anAccess (.nbop .addF32) 0x40000 false] }).me.accesses, a.ctx = 0 ∧ isNb a.kind = true ∧ a.performed = false) ∧
    (1 : BitVec 6).getLsbD 0 = true ∧ (32 : BitVec 6).getLsbD 5 = true := by decide
theorem wit_VectorIntegerLanes : VFmt.n64.isFloat = false ∧ (0, 2 ^ 32 - 1) = (if isSigned (ifCol .n32) then (-2 ^ (laneW (ifCol .n32) - 1), 2 ^ (laneW (ifCol .n32) - 1) - 1)
    else ((0 : Int), 2 ^ laneW (ifCol .n32) - 1)) := by decide
theorem wit_VectorFloatLanes : fpOf .bf16 = some bf16 ∧ fpOf (ffCol .f64) = some fp64 ∧ (0 : VNum).val = ((31 : VNum).val + 1) % 32 ∧ (State.reset.active .always).getLsbD 63 = true :=
  ⟨rfl, rfl, by decide, by decide⟩
theorem wit_VectorLogic : (State.reset.active (.on 0 true)).getLsbD 63 = true ∧ (State.reset.active (.on 0 false)).getLsbD 63 = false := by decide
/-- Lanes at the edges of their columns, and a scan of FP16 lanes, which is kept in FP32 (R124, R132 to R135). -/
theorem wit_VectorMovesAndCompares : 2 ^ 32 - 1 < 2 ^ laneW .bf16 ∧ 2 ^ 64 - 1 < 2 ^ laneW .i64 ∧ laneW .n32 = 32 ∧ 63 < 2048 / laneW .f16 ∧
    (reductionAt .f16 .scan 1 (elems 1 32) 63).isSome = true ∧ (reductionAt .i64 .sumS 0 (elems 0 64) 31).isSome = true ∧ (reductionAt .f64 .sumS 0 (elems 0 64) 31).isSome = false := by
  decide
theorem wit_BitNetworkAndStreams_outside : (regs 0x200000 0).guard .always = true ∧ 0x200000 = (regs 0x200000 0).opA 1 + (regs 0x200000 0).opB (.reg 2) ∧
    (0x200000 : Word).toNat % 64 = 0 ∧ (0x200000 : Word).toNat % 16 = 0 ∧ 0x200000 < (0x200000 : Word).toNat + 16 ∧ 0x1FFFC0 < (0x200000 : Word).toNat := by decide
theorem wit_BitNetworkAndStreams : (regs 0x1FFFC0 0).guard .always = true ∧ (regs 0x1FFFC0 0).opA 1 + (regs 0x1FFFC0 0).opB (.reg 2) = 0x1FFFC0 ∧ (0x1FFFC0 : Word).toNat % 64 = 0 ∧
    (0x1FFFC0 : Word).toNat ≤ 0x1FFFC0 ∧ (∀ a n, Current (regs 0x1FFFC0 0) .core 0 a n) ∧ (0x1FFFF0 : Word).toNat % 16 = 0 ∧ (0x1FFFF0 : Word).toNat + 16 ≤ 0x200000 ∧
    (regs 0x1FFFC0 0).poisonAt (0x10000000000 + 0x1FFFC0) 64 = none ∧ (0x1FFFF8 : Word).toNat % 16 ≠ 0 ∧ (0x1FFFE0 : Word).toNat % 64 ≠ 0 :=
  ⟨by decide, by decide, by decide, by decide, fun _ _ => current_of (by decide) (by decide) (by decide) (by decide), by and_intros <;> decide⟩

/-- Core 0 with every accumulator owned by context 0, scalars 1 and 2 holding operands in two bank groups. -/
def owning (a b : Word) : State := onCtx fun k => { k with accMask := 255, s := (k.s.set 1 a).set 2 b }
/-- A launch as a record of zeros gives it, with one handle at VA 0x10000. -/
def aLaunch : Launch := { State.reset.readRecord 7 0 none 0x80000 0 none with htab := 0x10000, hcount := 1, boards := [15], chans := [⟨5, false, 1, 0x0F, 0, 1, 0, 0, 0, 0, [], []⟩, ⟨6, true, 1, 0x0F, 1, 0, 0, 0, 0, 0, [], [9]⟩] }
def launched (s : State) (l : Launch) : State := (s.mapDie 0 fun d => { d with launches := [l] }).mapCtx 0 0 fun k => { k with launch := some 7 }
def entryWord : Nat := 2 ^ 63 + 3 * 2 ^ 24 + MFmt.bf16.bRows * 2 ^ 16 + MFmt.bf16.depth
/-- The buffer 0 of core 0 holds the tile of that handle, whose entry lies where the tables map page 1. -/
def handles : State := (mapped (withWords (launched (owning 0 0) aLaunch) [(0x40000, entryWord)])).mapCore 0 fun k => k.setBuffer 0 (some ⟨7, BitVec.ofNat 256 entryWord, [], [], true⟩)
def aHandle : Handle := ⟨0, MFmt.bf16.entryCode, MFmt.bf16.bRows, MFmt.bf16.depth, 0, 0, 0⟩
/-- A seed-descriptor record with one term of bf16 coefficients at scratchpad offset 0x40000 (R152). -/
def seeded : State := withWords (owning 0 0x40000) [(0x10000040000, 5), (0x10000040008, 3 * 2 ^ 8 + 1)]
theorem wit_MatrixStarts : ((onCtx fun k => { k with accMask := 127 }).my.accMask.getLsbD 7 = false ∧ matrixGuard (.mzero .always 7) = some (.always, 7)) ∧
    ((onCore fun k => { k.mapCtx 0 (fun y => { y with accMask := 1 }) with mtx := multiplying.me.mtx }).my.accMask.getLsbD 0 = true) ∧ multiplying.me.mtx ≠ none ∧
    ((owning 0 0x40000).guard .always = true ∧ (owning 0 0x40000).my.accMask.getLsbD 7 = true ∧ (owning 0 0x40000).me.mtx = none) ∧
    (OperandOk ((owning 0 0x40000).opA 1) (64 * 128) ∧ OperandOk ((owning 0 0x40000).opB (.reg 2)) (64 * 128) ∧ Apart ((owning 0 0x40000).opA 1) ((owning 0 0x40000).opB (.reg 2))) ∧
    (MFmt.bf16 = MFmt.bf16.resolve (owning 0 0).my.fmtn) := by
  unfold OperandOk Apart; decide
theorem wit_MatrixStarts_handle : UnitReady handles .always 0 ∧ MFmt.bf16 = MFmt.bf16.resolve handles.my.fmtn ∧ OperandOk (handles.opA 1) (64 * MFmt.bf16.rowBytes) ∧
    0 = (handles.opB (.reg 2)).toNat ∧ handles.launchOf handles.issue.core handles.issue.ctx = some aLaunch ∧ Mapped handles (BitVec.ofNat 64 (aLaunch.htab.toNat + 32 * 0)) page1 ∧
    Mapped handles (BitVec.ofNat 64 (aLaunch.htab.toNat + 32 * 0 + 31)) page1 ∧ (aLaunch.htab.toNat + 32 * 0) % 2 ^ 64 + 31 < 2 ^ 55 ∧
    EntryAt handles aLaunch 0 0 page1 page1 0x40000 0x4001F ∧ (∀ e ∈ handles.me.accesses, e.ctx ≠ handles.issue.ctx) ∧ handleOf (handles.handleEntry 0 0 (0x40000, 0x4001F)) = some aHandle ∧
    Staged.serves (handles.me.buffer aHandle.stage) (handles.my.launch.getD 0) (handles.handleEntry 0 0 (0x40000, 0x4001F)) = some [] :=
  ⟨⟨by decide, by decide⟩, by decide, by unfold OperandOk; decide, by decide, by decide, ⟨by decide, ok_of (by decide), by decide, rfl, rfl⟩,
    ⟨by decide, ok_of (by decide), by decide, rfl, rfl⟩, by decide, (by constructor <;> decide), by and_intros <;> decide⟩
theorem wit_MatrixStarts_seed : UnitReady seeded .always 0 ∧ (seeded.seedDesc 0 (seeded.opB (.reg 2)).toNat).ok (some 3) = true ∧
    (seeded.seedDesc 0 (seeded.opB (.reg 2)).toNat).ok none = true ∧ OperandOk (seeded.opB (.reg 2)) (seedExtent (seeded.seedDesc 0 (seeded.opB (.reg 2)).toNat).header) ∧
    OperandOk (seeded.opA 1) 8192 ∧ Apart (seeded.opA 1) (seeded.opB (.reg 2)) := by
  refine ⟨⟨by decide, by decide⟩, by decide, by decide, ?_, ?_, ?_⟩ <;> simp only [OperandOk, Apart] <;> decide
/-- Some number of a search is the best of its scores (R156), and the operand and counts of a `sdscan` over one seed. -/
theorem wit_MatrixStarts_best (sc : Nat → Nat) (cnt : Nat) : ∃ n, BestOf sc cnt n := by
  induction cnt with
  | zero => exact ⟨0, .inl ⟨rfl, fun i h => by omega⟩⟩
  | succ k ih =>
    obtain ⟨n, h⟩ := ih
    by_cases hk : (Fp.ofBits fp64 (sc k)).isNan = true
    · rcases h with ⟨h0, ha⟩ | ⟨hn, hv, hb⟩
      · exact ⟨0, .inl ⟨rfl, fun i hi => if e : i = k then e ▸ hk else ha i (by omega)⟩⟩
      · refine ⟨n, .inr ⟨by omega, hv, fun i hi hi' => ?_⟩⟩
        by_cases e : i = k
        · subst e; simp [hk] at hi'
        · exact hb i (by omega) hi'
    · rcases h with ⟨h0, ha⟩ | ⟨hn, hv, hb⟩
      · refine ⟨k, .inr ⟨by omega, by simpa using hk, fun i hi hi' => ?_⟩⟩
        by_cases e : i = k
        · subst e; simp
        · simp [ha i (by omega)] at hi'
      · by_cases hlt : sc n < sc k
        · refine ⟨k, .inr ⟨by omega, by simpa using hk, fun i hi hi' => ?_⟩⟩
          by_cases e : i = k
          · subst e; simp
          · have := (hb i (by omega) hi').1
            exact ⟨by omega, by omega⟩
        · refine ⟨n, .inr ⟨by omega, hv, fun i hi hi' => ?_⟩⟩
          by_cases e : i = k
          · subst e; exact ⟨by omega, by omega⟩
          · exact hb i (by omega) hi'
theorem wit_MatrixStarts_scan : UnitReady (owning 0 0x40000) .always 0 ∧ OperandOk ((owning 0 0x40000).opA 1) 8192 ∧ (0 : SReg).val = ((63 : SReg).val + 1) % 64 := by
  unfold UnitReady OperandOk; decide
/-- One operation that ends in an accumulator, one that stores rows, and a core that a record freezes. -/
def storingRows : State := onCore fun k => { k with mtx := some ⟨0, 64, none, List.replicate 64 1, false, none, some (0x1FE000, 128), [], [], none, 0⟩ }
theorem wit_MatrixCompletes : (multiplying.core 0).mtx = some ⟨0, 64, some 0, List.replicate 64 1, false, none, none, [], [], none, 0⟩ ∧
    (storingRows.core 0).mtx = some ⟨0, 64, none, List.replicate 64 1, false, none, some (0x1FE000, 128), [], [], none, 0⟩ ∧ State.reset.memOk ∧ storingRows.memOk ∧
    (multiplying.core 0).halted = false ∧ ((multiplying.mapCore 0 fun k => { k with record := some ⟨⟨0, 0, 0, 1, 0, 0x11, 8, 0, 0, 0⟩, true, []⟩ }).core 0).halted = true :=
  ⟨rfl, rfl, rfl, rfl, by decide, by decide⟩
/-- A bundle of one word before one whose M slot is `mma.h.f64` (R149), its sealed tile of zeros in the pages of `paged`. -/
def ahead : State := mapped (withWords (launched (onCore fun k => { k with running := some 0, imap := [0, 2], imem := [(0, 0xF8080000), (1, 0), (2, 0xF8000000 + 2 ^ 25), (3, 0x16 * 2 ^ 25)] })
  { aLaunch with htab := 0x30000 }) [(0x40000, 2 ^ 63 + MFmt.f64.entryCode * 2 ^ 24 + MFmt.f64.bRows * 2 ^ 16 + MFmt.f64.depth), (0x40008, 0x30100)])
def aheadHandle : Handle := ⟨0, MFmt.f64.entryCode, MFmt.f64.bRows, MFmt.f64.depth, 0x30100, 0, 0⟩
theorem wit_MatrixCompletes_lookahead : (ahead.core 0).running = some 0 ∧ ((ahead.core 0).following (ahead.ctx 0 0).loop 64 ((ahead.ctx 0 0).pc.toNat / 4)).contains 2 = true ∧
    (ahead.core 0).lookaheadIndex 0 2 = some 0 ∧ ahead.launchOf 0 0 = some { aLaunch with htab := 0x30000 } ∧ KeptOf ahead 0 0 0x30000 page3 ∧ KeptOf ahead 0 0 0x3001F page3 ∧
    EntryAt ahead { aLaunch with htab := 0x30000 } 0 0 page3 page3 0x40000 0x4001F ∧ handleOf (ahead.handleEntry 0 0 (0x40000, 0x4001F)) = some aheadHandle ∧
    formOfCode MFmt.f64.entryCode = some .f64 ∧ (ahead.core 0).bufferBusy 0 = false ∧ Staged.serves ((ahead.core 0).buffer 0) 7 (ahead.handleEntry 0 0 (0x40000, 0x4001F)) = none :=
  ⟨by decide, by decide, by decide, by decide, ⟨ok_of (by decide), by decide⟩, ⟨ok_of (by decide), by decide⟩, (by constructor <;> decide),
    by and_intros <;> decide⟩
theorem wit_MatrixCompletes_rows : MFmt.f64 ≠ .q ∧ (List.replicate 64 0).length = 64 ∧ (List.replicate MFmt.f64.bRows 0).length = MFmt.f64.bRows := by decide
theorem wit_MatrixCompletes_tile : ∀ r < MFmt.f64.bRows, ∀ j < MFmt.f64.rowBytes / 8, KeptOf ahead 0 0 ((aheadHandle.rowAt r + 8 * j) % 2 ^ 64) page3 ∧ page3.isSealed = true ∧
    ahead.assigned (page3.paOf (aheadHandle.rowAt r + 8 * j)) = true ∧ regionClass (ahead.localPa (page3.paOf (aheadHandle.rowAt r + 8 * j))) = some .hbm := by
  intro r _ j hj
  have h : aheadHandle.rowAt r = 0x30100 := by simp [Handle.rowAt, aheadHandle]
  have all : ∀ j < MFmt.f64.rowBytes / 8, (ahead.walk 0 0 ((0x30100 + 8 * j) % 2 ^ 64)).toOption = some page3 ∧
      (ahead.die 0).tlb.filter (fun k => k.covers 0 ((0x30100 + 8 * j) % 2 ^ 64)) = [page3] ∧ ahead.assigned (page3.paOf (0x30100 + 8 * j)) = true ∧
      regionClass (ahead.localPa (page3.paOf (0x30100 + 8 * j))) = some .hbm := by decide
  rw [h]
  exact ⟨⟨ok_of (all j hj).1, (all j hj).2.1⟩, rfl, (all j hj).2.2⟩
/-- A set of engine words from its nonzero ones. -/
def words16 (l : List (Nat × Nat)) : Vector Word 16 := l.foldl (fun v e => v.setIfInBounds e.1 (BitVec.ofNat 64 e.2)) (Vector.replicate 16 0)
/-- Engine 1's shadow set holds the plan of one 2-point transform (R164); engine 2's active set a transpose of one rank over channel 5 (R256). -/
def engines : State := (launched (onCore fun k => { k with
  eng1 := { k.eng1 with shadow := words16 [(1, 2), (7, 1)] }
  eng2 := { k.eng2 with active := words16 [(0, 2 ^ 32 + 2 ^ 10 + 1), (1, 0x0001000100010001), (4, 5)] } }) aLaunch)
def claimed : State := onCore fun k => { k with eng0 := { k.eng0 with claim := some 3 } }
def aCommand : Command := ⟨9, .copy, false, 0, Vector.replicate 16 0, 0x100, 0x200, 64, 0, 0, 0, [], [], false, none, 0, [], []⟩
def queued (q : Command) : State := onCore fun k => { k with copyq := [q] }
theorem wit_EngineCommands : engines.guard .always = true ∧ (claimed.me.eng .copy).freeFor claimed.issue.ctx = false ∧ (engines.me.eng .xpose).freeFor engines.issue.ctx = true ∧
    ((0x1FFFF8 : Word).toNat % 8 = 0 ∧ (0x1FFFF8 : Word).toNat + 8 * (16 - (15 : Fin 16).val) ≤ 0x200000) ∧ engines.me.xft = none ∧ engines.me.eng1.freeFor engines.issue.ctx = true ∧
    planOk engines.me.eng1.shadow = true ∧ planOutside engines.me.eng1.shadow = none := by decide
theorem wit_EngineCommands_copy : (engines.my.grd && (templateOf engines.me.eng0.active).dsp) = false ∧ templateOk engines.me.eng0.active 64 = true ∧ engines.me.copyq.length < 512 ∧
    (templateOf engines.me.eng0.active).misaligned 0x100 0x200 = none ∧ (templateOf engines.me.eng0.active).outside false 64 0x100 0x200 = none ∧
    (templateOf engines.me.eng0.active).beyond false 64 0x100 0x200 = none ∧ (templateOf engines.me.eng0.active).outside true 64 0x100 0x200 = none ∧
    (templateOf engines.me.eng0.active).beyond true 64 0x100 0x200 = none ∧ (templateOf engines.me.eng0.active).mode = 0 ∧ (templateOf engines.me.eng0.active).olen ≤ 65536 ∧
    ((((onDie fun d => { d with routines := [⟨0, 0, []⟩] }).die 0).routine 0).isSome = true) := by decide
theorem wit_EngineCommands_xpose : engines.my.grd = false ∧ engines.xposeOk engines.issue.core engines.me.eng2.active = true ∧ (xparam engines.me.eng2.active).outside = none ∧
    (xparam engines.me.eng2.active).beyond = none ∧ (xparam engines.me.eng2.active).ibase % min (xparam engines.me.eng2.active).z 8 = 0 ∧
    512 ≤ (onCore fun k => { k with copyq := List.replicate 512 aCommand }).me.copyq.length := by decide
theorem wit_EngineSteps_copy : Works (queued aCommand) 0 9 aCommand ∧ aCommand.eng = .copy ∧ aCommand.help = false ∧
    (templateOf aCommand.set).mode = 0 ∧ (templateOf aCommand.set).ssp = false ∧ (templateOf aCommand.set).dsp = false ∧ bit (setWord aCommand.set 6) 63 = false ∧
    (queued aCommand).poison = [] ∧ (queued aCommand).memOk ∧ (∀ a n, Current (queued aCommand) .copy 0 a n) ∧ 0 < aCommand.n ∧
    aCommand.sectors + 1 < (templateOf aCommand.set).nr * ((aCommand.n + 31) / 32) :=
  ⟨⟨by decide, rfl, by decide, by decide⟩, rfl, rfl, by decide, by decide, by decide, by decide, rfl, rfl,
    fun _ _ => current_of (by decide) (by decide) (by decide) (by decide), by decide, by decide⟩
/-- A command whose source bytes are poisoned ends with an error (R250). -/
def poisoned : State := { queued aCommand with poison := [0x10000000200] }
def aHelper : Command := { aCommand with help := true, sectors := 4 }
def aTranspose : Command := { aCommand with eng := .xpose, set := words16 [(0, 2 ^ 32 + 2 ^ 13 + 2 ^ 10 + 1), (1, 0x0001000100010001)] }
/-- One rank over channel 5, its slabs in the scratchpad. -/
def aRank : Command := { aTranspose with set := engines.me.eng2.active }
/-- What a helper's run does is open (assumption 9): the two clauses about its end divide every run between them. -/
theorem wit_EngineSteps_errors : Works poisoned 0 9 aCommand ∧ 0 < (templateOf aCommand.set).total aCommand.help aCommand.n ∧ aCommand.rowReady = true ∧
    (match poisoned.copySector 0 aCommand with | .error (.code e) => e | _ => 0) ≠ 0 ∧
    (Works (queued aHelper) 0 9 aHelper ∧ aHelper.help = true ∧ ((queued aHelper).core 0).helperTurn = some 9 ∧ aHelper.row < (templateOf aHelper.set).nr ∧ aHelper.eng = .copy ∧
      aHelper.row * (templateOf aHelper.set).rowSectors true aHelper.n ≤ aHelper.sectors ∧ (templateOf aHelper.set).ssp = false) ∧
    (Works (queued aTranspose) 0 9 aTranspose ∧ aTranspose.eng = .xpose ∧ 0 < (xparam aTranspose.set).p ∧ aTranspose.served.contains 0 = false ∧ (xparam aTranspose.set).map1 = true ∧ (3 : BitVec 8) ≠ 0) ∧
    (∀ n < (xparam aTranspose.set).p, ({ aTranspose with served := [0] }).served.contains n = true) ∧
    (Works (queued aRank) 0 9 aRank ∧ aRank.eng = .xpose ∧ 0 < (xparam aRank.set).p ∧ aRank.served.contains 0 = false ∧ (xparam aRank.set).map1 = false ∧ (xparam aRank.set).isp = false ∧
      (xparam aRank.set).osp = false ∧ (queued aRank).poison = []) :=
  ⟨⟨by decide, rfl, by decide, by decide⟩, by decide, by decide, by decide, ⟨⟨by decide, rfl, by decide, by decide⟩, by and_intros <;> decide⟩,
    ⟨⟨by decide, rfl, by decide, by decide⟩, by and_intros <;> decide⟩, by decide,
    ⟨⟨by decide, rfl, by decide, by decide⟩, by and_intros <;> decide⟩⟩
/-- What a queued command reads from its scratchpad with nothing unordered before it, and a loaded routine. -/
theorem wit_EngineSteps_current (a n : Nat) : CurrentFor (queued aCommand) aCommand 0 a n :=
  ⟨rfl, rfl, fun u h => nomatch (h : u ∈ ([] : List Nat))⟩
theorem wit_EngineSteps_routine : (({ queued aHelper with die0 := { (queued aHelper).die0 with routines := [⟨0, 4, [1, 2, 3, 4, 5, 6]⟩] } }.die 0).routine
    (templateOf aHelper.set).routine) = some ⟨0, 4, [1, 2, 3, 4, 5, 6]⟩ := by decide
/-- A transform in progress, on a core that runs and on one that a record halts. -/
def transforming (r : Option Outstanding) : State := onCore fun k => { k with xft := some ⟨0, 0, 0, [], []⟩, eng1 := { k.eng1 with active := words16 [(1, 2), (7, 1)] }, record := r }
theorem wit_EngineSteps_xft : ((transforming none).core 0).xft = some ⟨0, 0, 0, [], []⟩ ∧ ((transforming none).core 0).halted = false ∧
    0 < planB ((transforming none).core 0).eng1.active ∧ ((transforming none).core 0).eng1.swap = none ∧ ((transforming (some ⟨aRecord, true, []⟩)).core 0).halted = true := by decide
/-- A transform of two elements, each of eight bytes, before and after it is done (R162 to R164, R175). -/
def planning (done : Nat) : State := onCore fun k => { k with xft := some ⟨0, 0, done, [], []⟩, eng1 := { k.eng1 with active := words16 [(1, 2), (3, 64), (4, 8), (5, 8), (7, 1)] } }
theorem wit_TransformResults : ((planning 0).core 0).xft = some ⟨0, 0, 0, [], []⟩ ∧ ((planning 0).core 0).halted = false ∧ (planning 0).memOk ∧
    0 < planB ((planning 0).core 0).eng1.active ∧ (planning 0).poison = [] ∧ OutputsApart ((planning 0).core 0).eng1.active 0 ∧ planN ((planning 0).core 0).eng1.active = 2 ∧
    planB ((planning 1).core 0).eng1.active ≤ 1 ∧ planOverlaps ((planning 1).core 0).eng1.active = false ∧
    OutsideOutputs 0 ((planning 0).core 0).eng1.active 0 0x10000000000 :=
  ⟨by decide, by decide, rfl, by decide, rfl, by unfold OutputsApart; decide, by decide, by decide, by decide, fun k hk o h => by subst h; match k, hk with | 0, _ => decide | 1, _ => decide⟩

theorem wit_BarrierUpdates : State.reset.memOk ∧ State.reset.savedGroup 0 none = none ∧
    ({ State.reset with updates := [⟨0, 0x1FFFF0, .arrive, 1, none⟩] }).updates[0]? = some ⟨0, 0x1FFFF0, .arrive, 1, none⟩ := ⟨rfl, by decide, rfl⟩
/-- The last arrival ends phase 15 and reloads the count (R306). -/
theorem test_barrier_phase : ({ Barrier.ofNat 0 with phase := 15, arr := 1, reload := 7 }.update .arrive 1).phase = 0 ∧
    ({ Barrier.ofNat 0 with phase := 15, arr := 1, reload := 7 }.update .arrive 1).arr = 7 := by decide
theorem wit_BarrierInstructions : ((regs 0x1FFFF0 0).opA 1).toNat % 16 = 0 ∧ ((regs 0x1FFFF0 0).opA 1).toNat + 15 ≤ 0x1FFFFF ∧
    ((regs 0x1FFFF0 0).barrier 0 0x1FFFF0).phase = ((regs 0x1FFFF0 0).opB (.reg 2)).setWidth 4 ∧ ((regs 0x1FFFF0 1).barrier 0 0x1FFFF0).phase ≠ ((regs 0x1FFFF0 1).opB (.reg 2)).setWidth 4 ∧
    ((regs 1 0).opA 1).toNat % 16 ≠ 0 ∧ ((regs 0x200000 0).opA 1).toNat % 16 = 0 ∧ 0x1FFFFF < ((regs 0x200000 0).opA 1).toNat + 15 ∧ guarded.my.grd = true := by decide
theorem wit_BarrierInstructions_global : (mapped (regs 0x20010 0)).my.grd = false ∧ ((mapped (regs 0x20010 0)).opA 1).toNat % 16 = 0 ∧
    Mapped (mapped (regs 0x20010 0)) ((mapped (regs 0x20010 0)).opA 1) page2 ∧ page2.cls = .onchip ∧
    physOf (mapped (regs 0x20010 0)) ((mapped (regs 0x20010 0)).opA 1) page2 = 0x10000000000 + (0 : CoreId).val * 0x200000 + 0x10 ∧
    (mapped (regs 0x20010 0)).assigned (physOf (mapped (regs 0x20010 0)) ((mapped (regs 0x20010 0)).opA 1) page2) = true ∧
    ((mapped (regs 0x20010 0)).opB (.reg 2)).toNat % 2 ^ 16 = 0 ∧ ((mapped (regs 0x20010 1)).opB (.reg 2)).toNat % 2 ^ 16 ≠ 0 ∧
    (mapped storing).unperformed .core = true ∧ (mapped (regs 0x20010 1)).unperformed .core = false :=
  ⟨by decide, by decide, ⟨by decide, ok_of (by decide), by decide, rfl, rfl⟩, rfl, by and_intros <;> decide⟩
theorem wit_Scoreboards : (launched (regs 0 4096) aLaunch).sbOk 4096 = false ∧ (4096 / 2 ^ 12 % 16 ≠ 0) ∧
    (0x10F00000FFF = 4095 + (1 - 1) * 2 ^ 16 + 15 * 2 ^ 32 + true.toNat * 2 ^ 40 ∧ 4095 + 1 ≤ 4096 ∧ (launched (regs 0 0x10F00000FFF) aLaunch).launchOf 0 0 = some aLaunch ∧ 15 ∈ aLaunch.boards) ∧
    ((launched (regs 0 0x10F00000FFF) aLaunch).unperformed .die = false ∧ (launched storing aLaunch).unperformed .die = true ∧
      ∀ m ∈ ((launched (regs 0 0) aLaunch).die 0).arms, m.board ≠ 15) ∧
    (64 ≤ ((((launched (regs 0 0) aLaunch).mapDie 0 fun d => { d with arms := List.replicate 64 ⟨0, 0, 0, 15, 0, 1, false, none, false⟩ }).die 0).arms.filter fun m => m.core == 0 && m.saved.isNone).length) ∧
    ((launched (regs 0 0) aLaunch).die 0).board 15 = 0 ∧ (((launched (regs 0 0) aLaunch).mapDie 0 fun d => d.setBoard 15 (rangeMask 4095 1)).die 0).board 15 = rangeMask 4095 1 := by decide
/-- A task of a launch that declares level 2 and whose counter there holds two live members. -/
def aCounter (arrived : Nat) (phase drain : Bool) : DCounter := ⟨7, 1, 0, 2, 2, arrived, 3, drain, phase, []⟩
def domains (arrived : Nat) (phase drain : Bool) : State := (launched (regs 0 1) aLaunch).mapDie 0 fun d => { d with counters := [aCounter arrived phase drain] }
theorem wit_DomainBarriers : (4 : Fin 8).val = ((regs 0 4).opB (.reg 2)).toNat % 8 ∧ (regs 0 4).levelDeclared (4 : Fin 8).val = false ∧
    ((0 : Fin 8).val = ((regs 0 8).opB (.reg 2)).toNat % 8 ∧ (regs 0 8).my.dmem.getLsbD 56 = false) ∧
    ((storing.mapMy fun k => { k with dmem := BitVec.ofNat 64 (2 ^ 56) }).my.dmem.getLsbD 56 = true ∧
      (storing.mapMy fun k => { k with dmem := BitVec.ofNat 64 (2 ^ 56) }).phaseOpen 0 0 ((storing.mapMy fun k => { k with dmem := BitVec.ofNat 64 (2 ^ 56) }).markOf 0 0) = true ∧
      (regs 0 8).phaseOpen 0 0 ((regs 0 8).markOf 0 0) = false) ∧
    ((1 : Fin 8) ≠ 0 ∧ (domains 0 false false).levelDeclared 1 = true ∧ (domains 0 false false).my.dbarPend = none ∧
      (domains 0 false false).counterOf 0 0 1 = aCounter 0 false false ∧ (aCounter 0 false false).arrived + 1 < (aCounter 0 false false).live ∧
      (aCounter 1 false false).live ≤ (aCounter 1 false false).arrived + 1 ∧ (aCounter 1 false false).phase = false) ∧
    ((((domains 2 false true).die 0).counters.find? fun j => j.launch == 7 && j.level == 1 && j.idx == 0) = some (aCounter 2 false true) ∧
      (aCounter 2 false true).drain = true ∧ (aCounter 2 false true).live ≤ (aCounter 2 false true).arrived ∧ (aCounter 2 false false).phase = false ∧
      (domains 2 true true).domainOpen 0 (aCounter 2 true true) = false) := by decide
/-- The last arrival of a communication phase: with an access of the task outstanding the counter waits, with none it completes. -/
def lastArrival (open_ : Bool) : State := (domains 1 true false).mapCore 0 fun k => { k with accesses := if open_ then [anAccess .store 0x40000 false] else [], nextAcc := 1 }
theorem wit_DomainBarriers_last : (lastArrival true).counterOf 0 0 1 = aCounter 1 true false ∧ (aCounter 1 true false).live ≤ (aCounter 1 true false).arrived + 1 ∧
    (aCounter 1 true false).phase = true ∧
    ((lastArrival true).mapMy fun y => { y with dbarPend := some ⟨1, 3⟩ }).domainOpen 0 { aCounter 1 true false with arrived := 2, marks := [(lastArrival true).markOf 0 0] } = true ∧
    ((lastArrival false).mapMy fun y => { y with dbarPend := some ⟨1, 3⟩ }).domainOpen 0 { aCounter 1 true false with arrived := 2, marks := [(lastArrival false).markOf 0 0] } = false := by
  decide
/-- Channels 5 (scalar, produced by task 0, full or free) and 6 (vector, consumed by task 0, holding one element). -/
def chan5 (sent : Nat) : Chan := ⟨5, false, 1, 0x0F, 0, 1, 0, sent, 0, 0, [], []⟩
def chan6 (fifo : List VWord) : Chan := ⟨6, true, 1, 0x0F, 1, 0, 0, 1, 0, 0, [], fifo⟩
def channels (sent : Nat) (fifo : List VWord) (retired : List Nat) (n : Word) : State := launched (regs 0 n) { aLaunch with chans := [chan5 sent, chan6 fifo], retired := retired }
theorem wit_Channels : 1023 < ((regs 0 1024).opB (.reg 2)).toNat ∧ ((channels 0 [] [] 5).opB (.reg 2)).toNat ≤ 1023 ∧
    ((channels 0 [] [] 5).launchOf 0 0).isSome = true ∧ (((channels 0 [] [] 5).launchOf 0 0).bind fun l => l.chan ((channels 0 [] [] 5).opB (.reg 2)).toNat) = some (chan5 0) ∧
    (channels 0 [] [] 5).my.grd = false ∧ (channels 0 [] [] 5).my.task.toNat = (chan5 0).prod ∧ (chan5 0).vec = false ∧
    (chan5 0).depth ≤ (chan5 1).sent - (chan5 1).known ∧ (chan5 0).sent - (chan5 0).known < (chan5 0).depth ∧
    ({ aLaunch with retired := [1] }).hasRetired (chan5 0).cons = true ∧ aLaunch.hasRetired (chan5 0).cons = false ∧
    (((channels 0 [9] [] 6).launchOf 0 0).bind fun l => l.chan ((channels 0 [9] [] 6).opB (.reg 2)).toNat) = some (chan6 [9]) ∧ (channels 0 [9] [] 6).my.task.toNat = (chan6 [9]).cons ∧
    (chan6 []).fifo = [] ∧ (chan6 []).vec = true ∧ (chan6 [9]).fifo = 9 :: [] ∧ (chan6 [9]).depth < 2 ^ 16 ∧ (chan6 [9]).fifo.length < 2 ^ 16 := by decide
theorem wit_Channels_events : ((((channels 0 [] [] 5).die 0).launches.find? fun z => z.id == 7).bind fun z => z.chan 5) = some (chan5 0) ∧
    ({ chan5 1 with transit := [4] }).transit = 4 :: [] ∧ (channels 0 [] [] 5).consumerSaved 0 aLaunch (chan5 1) = false := by decide

/-- A group of one member, core 0 of this package with its row at HBM 0x50000, and a descriptor at scratchpad offset 0 (R292, R293, R384). -/
def aGroup : GroupCopy := ⟨1, false, false, 11, 0, 12, [(((Vector.replicate 4 0).set 1 0x50000 : Vector Word 4))]⟩
def grouped (w0 : Nat) : State := withWords (onDie fun d => { d with groups := [aGroup] }) [(0x10000000000, w0)]
def reduceWord : Nat := 2 ^ 48 + 2 ^ 22 + 2 ^ 17 + 2 ^ 12
def castWord : Nat := 2 ^ 48 + 2 ^ 34
theorem ready_of (w0 : Nat) (r : Bool) (h : Vector.toList (((Vector.replicate 4 0).set 0 (BitVec.ofNat 64 w0) : Vector Word 4)) =
      (List.range 4).map fun i => BitVec.ofNat 64 (Memory.read (grouped w0).mem (spadBase 0 + 8 * i) 8))
    (hf : collOk ((Vector.replicate 4 0).set 0 (BitVec.ofNat 64 w0) : Vector Word 4) 0 r = true)
    (ha : ((grouped w0).die 0).group (collDesc ((Vector.replicate 4 0).set 0 (BitVec.ofNat 64 w0) : Vector Word 4)).gidx = some aGroup)
    (hb : (collDesc ((Vector.replicate 4 0).set 0 (BitVec.ofNat 64 w0) : Vector Word 4)).sben = false) (hm : ((grouped w0).rankOf aGroup 0).isSome = true) :
    CollReady (grouped w0) 0 0 r ((Vector.replicate 4 0).set 0 (BitVec.ofNat 64 w0) : Vector Word 4) aGroup where
  unguarded := rfl
  place := by decide
  current := current_of rfl rfl rfl rfl
  clean := rfl
  words := by
    intro i
    have := congrArg (fun l => l[i.val]?) h
    have h0 : (grouped w0).issue.core = 0 := rfl
    simpa [List.getElem?_range, h0] using this
  barrier := by intro h; simp at h
  fields := hf
  active := ha
  board := by rw [hb]; intro h; cases h
  member := hm
/-- A group without core 0, and a descriptor that sets scoreboard bits from 4,096 on. -/
def farWord : Vector Word 4 := (Vector.replicate 4 0).set 0 (2 ^ 32)
def farMember : GroupCopy := { aGroup with members := [farWord] }
def collecting_far : State := onDie fun d => { d with groups := [farMember] }
def sbWords : Vector Word 4 := (Vector.replicate 4 0).set 0 (BitVec.ofNat 64 (castWord + 2 ^ 39 + 4095))
/-- Both collective instructions on core 0, and two that fail. -/
theorem wit_CollectiveIssue : (grouped reduceWord).guard .always = true ∧ CollReady (grouped reduceWord) 0 0 true ((Vector.replicate 4 0).set 0 (BitVec.ofNat 64 reduceWord)) aGroup ∧
    CollReady (grouped castWord) 0 0 false ((Vector.replicate 4 0).set 0 (BitVec.ofNat 64 castWord)) aGroup ∧
    (match (grouped reduceWord).collCheck 8 0 true with | .error f => f.code | _ => 0) = 0x20 ∧
    (match (grouped reduceWord).collCheck 0 0 false with | .error f => f.code | _ => 0) ≠ 0 ∧ guarded.my.grd = true ∧ (0x200000 : Word).toNat % 32 = 0 ∧
    0x200000 < (0x200000 : Word).toNat + 32 :=
  ⟨by decide, ready_of _ _ (by decide) (by decide) (by decide) (by decide) (by decide), ready_of _ _ (by decide) (by decide) (by decide) (by decide) (by decide),
    by and_intros <;> decide⟩
/-- The checks of R387 that fail one after another: a barrier past the scratchpad, a descriptor against its rules, bits past the scoreboard, no active group, no
member, and under a guard a delivery. -/
theorem wit_CollectiveIssue_checks : (withWords State.reset [(0x10000000018, 2 ^ 63 + 2 ^ 21 - 8)]).my.grd = false ∧
    (BitVec.ofNat 64 (Memory.read (withWords State.reset [(0x10000000018, 2 ^ 63 + 2 ^ 21 - 8)]).mem (spadBase 0 + 24) 8)).getLsbD 63 = true ∧ 0x200000 < (2 ^ 63 + 2 ^ 21 - 8) % 2 ^ 21 + 16 ∧
    collOk ((Vector.replicate 4 0).set 0 (BitVec.ofNat 64 (3 * 2 ^ 36)) : Vector Word 4) 0 true = false ∧ collOk ((Vector.replicate 4 0).set 0 (BitVec.ofNat 64 castWord) : Vector Word 4) 0 false = true ∧
    ((State.reset.die 0).group (collDesc (Vector.replicate 4 0 : Vector Word 4)).gidx = none) ∧
    (collecting_far.rankOf farMember 0 = none) ∧ (collDesc sbWords).sben = true ∧ 4096 < (collDesc sbWords).sbfirst + [farWord, farWord].length ∧ collOk sbWords 0 false = true ∧
    (withWords guarded [(0x10000000000, 2 ^ 34)]).my.grd = true ∧ Memory.read (withWords guarded [(0x10000000000, 2 ^ 34)]).mem (spadBase 0) 8 / 2 ^ 34 % 4 = 1 := by and_intros <;> decide
/-- A reduction over members of another package, with and without a router that combines, and deliveries that wait. -/
def aColl (reduce answered : Bool) : CollOp := ⟨3, 0, 0, 0, 8, 0, none, reduce, 1, ((Vector.replicate 4 0).set 0 (BitVec.ofNat 64 (if reduce then reduceWord else castWord)) : Vector Word 4), 0, 0, [], [], false, none, 0, [], answered, 0, [], false⟩
def farWords : Vector Word 4 := (Vector.replicate 4 0).set 0 (2 ^ 32)
def ownWords (base : Word) : Vector Word 4 := (Vector.replicate 4 0).set 1 base
def farGroup (combine : Bool) (n : Nat) : GroupCopy := { aGroup with members := List.replicate n farWords, combine := combine }
def collecting (g : GroupCopy) (o : CollOp) : State := (onDie fun d => { d with groups := [g] }).mapPkg fun p => { p with colls := [o] }
theorem wit_CollectiveSteps : (collecting (farGroup false 1) (aColl true false)).coll 3 = some (aColl true false) ∧
    (collecting (farGroup false 1) (aColl true false)).collGroup (aColl true false) = some (farGroup false 1) ∧ (farGroup false 1).members[0]? = some farWords ∧
    (collecting (farGroup false 1) (aColl true false)).isOwn (memberOf farWords) = false ∧ (aColl true false).entry = none ∧ (aColl true false).absent = [] ∧
    (aColl true false).served.contains 0 = false ∧ ((collecting (farGroup false 1) (aColl true false)).core 0).accesses = [] ∧ (aColl true false).ring = false ∧
    (farGroup false 1).combine = false ∧ (aColl true false).passed + 1 = 1 ∧ (farGroup false 1).isSealed = false ∧
    ((collecting (farGroup true 2) (aColl true false)).collGroup (aColl true false) = some (farGroup true 2) ∧ (farGroup true 2).combine = true ∧ (aColl true false).passed + 1 < 2 ∧
      (collecting (farGroup true 2) (aColl true false)).entriesUsed < 8192) ∧
    (aColl true true).answered = true ∧ (aColl true true).absent = [] ∧ (aColl false false).reduce = false := by decide
/-- Members whose rows nothing orders after a write; an access of another package that meets a poisoned unit, and one that does not. -/
theorem wit_CollectiveSteps_reads : meeting ((collecting (farGroup false 1) (aColl true false)).collFresh none (memberOf (ownWords 0x40000)) 0x40000) 0x40000 256 = [] ∧
    meeting ((collecting (farGroup false 1) (aColl true false)).collFresh (some (aColl true false)) (memberOf (ownWords 0x40000)) 0x40000) 0x40000 256 = [] ∧
    (State.reset.markPoison 0x40000 8).assigned (0x40000 : BitVec 41).toNat = true ∧ (∃ u ∈ (State.reset.markPoison 0x40000 8).poison, overlaps u 8 (0x40000 : BitVec 41).toNat (8 : Fin 9).val = true) ∧
    (∀ v, RemoteOp.load ≠ .store v) ∧ State.reset.poison = [] ∧ (collDesc (aColl true false).desc).op ≤ 2 :=
  ⟨by decide, by decide, by decide, ⟨0x40000, by decide, by decide⟩, fun _ h => (nomatch h), rfl, by decide⟩
/-- Bytes put into memory, into a scratchpad, and at another package. -/
theorem put_memory (s : State) (g : GroupCopy) (m : Member) (l : Option Nat) (r : List Nat) (t : Option (Nat × Nat)) (pa : Nat) (b : List Byte) (hb : b ≠ [])
    (ho : s.isOwn m = true) (ha : s.rangeAssigned pa b.length = true) (hp : s.splitsPoison (s.localPa pa) b.length = false) (hl : s.localPa pa < 0x10000000000) :
    PutAt s (s.otherWrite (s.localPa pa) b) g m l r t pa b :=
  ⟨hb, fun _ => ⟨ha, hp, fun c a _ h => by omega, fun _ => rfl⟩, fun h => by simp [ho] at h⟩
theorem put_scratchpad (s : State) (g : GroupCopy) (m : Member) (l : Option Nat) (r : List Nat) (t : Option (Nat × Nat)) (pa a : Nat) (c : CoreId) (b : List Byte) (hb : b ≠ [])
    (ho : s.isOwn m = true) (ha : s.rangeAssigned pa b.length = true) (hp : s.splitsPoison (s.localPa pa) b.length = false) (hl : s.localPa pa = 0x10000000000 + c.val * 0x200000 + a)
    (hs : a < 0x200000) : PutAt s (s.deliverColl c l r t a b) g m l r t pa b := by
  refine ⟨hb, fun _ => ⟨ha, hp, fun c' a' h' h => ?_, fun h => ?_⟩, fun h => by simp [ho] at h⟩
  · have hc : c' = c := Fin.ext (by omega)
    have : a' = a := by subst hc; omega
    rw [hc, this]
  · have := c.isLt
    omega
theorem wit_CollectiveSteps_put : (∃ u, PutAt (collecting aGroup (aColl true true)) u aGroup (memberOf (ownWords 0x50000)) none (barsOf (aColl true true) (memberOf (ownWords 0x50000)))
      (sbOf (collecting aGroup (aColl true true)) (aColl true true) aGroup) 0x50000 (leBytes 256 0)) ∧
    (∃ u, PutAt (collecting aGroup (aColl false false)) u aGroup (memberOf (ownWords 0x10000200100)) none [] none 0x10000200100 (leBytes 256 0)) ∧
    (∃ u, PutAt (collecting aGroup (aColl false false)) u aGroup (memberOf farWords) none [] none 0 (leBytes 256 0)) :=
  ⟨⟨_, put_memory _ _ _ _ _ _ _ _ (by decide) (by decide) (by decide) (by decide) (by decide)⟩,
    ⟨_, put_scratchpad _ _ _ _ _ _ _ 0x100 1 _ (by decide) (by decide) (by decide) (by decide) (by decide) (by decide)⟩,
    ⟨_, by decide, fun h => absurd h (by decide), fun _ => rfl⟩⟩
/-- A packet of another package's operation, with one of the group's key and one that does not authenticate. -/
def sealedGroup : GroupCopy := { aGroup with isSealed := true }
def aRequest (own : Option Nat) : ContribReq := ⟨11, 12, true, 0, 0, 256, none, own⟩
theorem wit_CollectiveSteps_packets : Names (collecting aGroup (aColl true false)) 0 11 12 true 0 aGroup (ownWords 0x50000) ∧
    (((collecting sealedGroup (aColl true false)).die 0).groups.find? fun g => g.gid == 11) = some sealedGroup ∧ sealedGroup.isSealed = true ∧ aGroup.digest ≠ 13 ∧
    ((State.reset.die 0).groups.find? fun g => g.gid == 11) = none ∧ memberAddr (memberOf (ownWords 0x50000)) 0 = 0x50000 ∧
    (collecting aGroup (aColl true false)).rangeAssigned 0x50000 256 = true ∧ (collecting aGroup (aColl true false)).poison = [] ∧ (aRequest (some 3)).own = some 3 ∧
    (collecting aGroup (aColl true false)).coll 3 = some (aColl true false) ∧ (collecting aGroup (aColl true false)).collGroup (aColl true false) = some aGroup ∧
    (collecting aGroup (aColl true false)).asksFor (aColl true false) 0 (aRequest (some 3)) = true ∧ ((aColl true false).readRows.lookup 0).isSome = false ∧
    (aRequest none).own = none ∧ (aRequest none).ring = none ∧ State.reset.assigned 0x40000 = true ∧ State.reset.assigned 0x9000000000 = false :=
  ⟨(by constructor <;> decide), by and_intros <;> decide⟩

/-- A hart of die 0 with two operands, and a queue of one entry that names a record with an image of one empty bundle (R332, R334, R336). -/
def harts (a b : Word) (s : State) : State := s.mapHart fun h => { h with x := (h.x.set 1 a).set 2 b }
def imageWords : List (Nat × Nat) := [(0x90000, 0x6D696F31), (0x90008, 4 * 2 ^ 32), (0x90040, 0x1F8000000)]
def recordWords : List (Nat × Nat) := [(0x70000, 2 ^ 63 + 0x80000), (0x80000, 0x90000), (0x80010, 1)]
def aQueue : LQueue := { LQueue.reset with base := 0x70000, en := true, tail := 1 }
def launching : State := (withWords State.reset ((0, 2 ^ 63 + 0x10000) :: imageWords ++ recordWords)).mapQueue 0 63 fun _ => aQueue
theorem wit_FrontEndWords : ((harts 63 0 launching).hartNow.get 1).toNat = 63 ∧ ((harts 63 0 launching).die 0).queue 63 = aQueue ∧ LQueue.reset.en = false ∧ aQueue.en = true ∧
    aQueue.park = false ∧ aQueue.head ≠ aQueue.tail ∧ (aQueue.tail - aQueue.head).toNat ≤ 2 ^ aQueue.lg ∧ 2 ^ aQueue.lg < (({ aQueue with tail := 257 }).tail - aQueue.head).toNat ∧
    0x70000 = aQueue.base.toNat + 16 * (aQueue.head.toNat % 2 ^ aQueue.lg) ∧ launching.localHbm 0x70000 = true ∧ launching.localHbm (0x70000 + 15) = true ∧ launching.poison = [] ∧
    Memory.read launching.mem 0x70000 8 = 2 ^ 63 + 0x80000 ∧ (2 ^ 63 + 0x80000) / 2 ^ 52 % 2 ^ 9 = 0 ∧ launching.localHbm 0x80000 = true ∧ (2 ^ 63 + 0x80000) / 2 ^ 61 % 4 = 0 ∧
    0x80000 % 256 = 0 ∧ Hart.reset.latch.lookup 63 = none ∧ ({ Hart.reset with latch := [(63, aQueue.head, 5, 6)] }).latch.lookup 63 = some (aQueue.head, 5, 6) ∧
    64 ≤ ((harts 64 0 launching).hartNow.get 1).toNat ∧ (63 + 1 ≤ 64 ∧ 63 = ((harts 1 0x13F launching).hartNow.get 2).toNat % 64 ∧ 1 = ((harts 1 0x13F launching).hartNow.get 2).toNat / 256 % 128) ∧
    ((harts 1 0x23F launching).hartNow.get 2).toNat % 64 + ((harts 1 0x23F launching).hartNow.get 2).toNat / 256 % 128 > 64 := by decide
theorem wit_FrontEndWords_wait : ((harts 0x40001 0 launching).hartNow.get 1).toNat % 8 ≠ 0 ∧ launching.assigned 0x9000000000 = false ∧ launching.assigned 0x40000 = true ∧
    ((harts 0x40000 0 launching).hartNow.get 2).toNat ≤ (harts 0x40000 0 launching).memRead (launching.localPa 0x40000) 8 ∧
    (harts 0x40000 1 launching).memRead (launching.localPa 0x40000) 8 < ((harts 0x40000 1 launching).hartNow.get 2).toNat ∧ Hart.reset.woken = false ∧
    ((harts 0 0x8000 launching).hartNow.get 2).toNat / 2 ^ 10 % 64 ≠ 0 := by decide
/-- A record that this die's harts took from queue 63 and have not dispatched. -/
theorem wit_FrontEndWords_taken : ((launching.die 0).launches.find? fun l => l.recPa == 0x80000) = none ∧
    ((onDie fun d => { d with taken := [⟨7, 63, 0x80000, 5⟩] }).die 0).taken.find? (fun e => e.recPa == 0x80000) = some ⟨7, 63, 0x80000, 5⟩ := by decide
/-- A launch that checks, and where its one group goes. -/
def dispatching : State := harts 0x80000 0 launching
def checkedLaunch : Launch := { State.reset.readRecord 0 0 none 0x80000 0 none with image := 0x90000, cores := 1, checked := true, cbytes := 4 }
/-- The state and the launch that a dispatch of that record goes on with. -/
def taken : State × Launch := dispatching.dispatchLaunch 0x80000
def checked : Launch := (taken.1.launchChecks 0 taken.2).2
theorem wit_FrontEndWords_dispatch : (dispatchArg (dispatching.hartNow.get 2).toNat) = some ⟨0, 0, 0, false⟩ ∧ (dispatching.hartNow.get 1).toNat % 256 = 0 ∧
    dispatching.readFault (dispatching.hartNow.get 1).toNat 256 = none ∧ taken.2.checked = false ∧ (taken.1.launchChecks 0 taken.2).1 = [] ∧ taken.1.spaceCodes 0 checked = [] ∧
    taken.1.lateCodes 0 taken.2 = [] := (by constructor <;> decide)
theorem wit_FrontEndWords_place : (ctxIds.filter fun x => decide (0 ≤ x.val ∧ x.val < 0 + checked.groupSize 0)) = [0] ∧ checked.groupSize 0 = 1 ∧
    0 < checked.groups ∧ checked.isPlaced 0 = false ∧ checked.whole = false ∧ coreOn 0 0 ∈ taken.1.namedCores 0 checked.cores ∧ (taken.1.core (coreOn 0 0)).isVacant 0 = true :=
  (by constructor <;> decide)
theorem wit_FrontEndWords_fits : taken.1.savedGroup (coreOn 0 0) (some checked.id) = none ∧ taken.1.fits (coreOn 0 0) (checked.need 0) 0 = true ∧ taken.1.recordFits checked = true ∧ taken.1.boardsFree 0 checked = true ∧
    (taken.1.readImage checked.image).isSome = true := ⟨by decide, by decide, by decide, by decide, by decide⟩
/-- Core 0 waits on a record that stands in its queue. -/
def trapped (src : BitVec 3) : State := onCore fun k =>
  { k.mapCtx 0 (fun y => { y with st := .running }) with record := some ⟨{ aRecord with src := src }, true, [0xF8080000, 0]⟩, pctlArea := 0x100000 }
def stoppedCommand : Command := { aCommand with stopped := true }
theorem wit_HandlerReturns : (trapped 0).served 0 = some ⟨aRecord, true, [0xF8080000, 0]⟩ ∧ ((trapped 1).served 0).isSome = true ∧ (1 : BitVec 3) ≠ 0 ∧
    ((trapped 0).ctx 0 0).st ≠ .free ∧ ((trapped 0).ctx 0 0).st ≠ .retired ∧ ((trapped 0).ctx 0 0).st ≠ .saved ∧
    (trapped 0).areaOk 0 ((trapped 0).core 0).saveArea.toNat = true ∧ ((queued stoppedCommand).core 0).command 9 = some stoppedCommand ∧ stoppedCommand.stopped = true ∧
    stoppedCommand.eng = .copy ∧ ({ aTranspose with stopped := true }).eng = .xpose := by decide
theorem wit_HandlerReturns_head : (∀ c : CoreId, c.cluster = 0 → ((State.reset.setTrapQ 0 ⟨[aRecord], 0, 1, 1, 0⟩).core c).record = none ∧
      ((State.reset.setTrapQ 0 ⟨[aRecord], 0, 1, 1, 0⟩).core c).copyq = []) ∧
    (1 - ((State.reset.setTrapQ 0 ⟨[aRecord], 0, 1, 1, 0⟩).trapQ 0).head).toNat ≤ ((State.reset.setTrapQ 0 ⟨[aRecord], 0, 1, 1, 0⟩).trapQ 0).records.length := by
  refine ⟨fun c _ => ?_, by decide⟩
  simp [State.setTrapQ, State.core, State.reset, Core.reset]
theorem wit_HandlerReturns_window : (0x1FFFF8 : BitVec 24).toNat % 8 = 0 ∧ (0x1FFFF8 : BitVec 24).toNat < 0x200000 ∧ State.reset.memOk ∧
    ((0x0900000000000003 : Word).toNat % 8 = 3 ∧ (1 : Word).toNat % 8 = 1 ∧ (2 : Word).toNat % 8 = 2 ∧ (4 : Word).toNat % 8 = 4 ∧ (2 : Word).toNat % 4 = 2) ∧
    (trapped 0).coreEnabled 0 = true ∧ State.reset.coreEnabled 0 = true ∧ ((trapped 0).core 0).record ≠ none ∧ (0x40C1F8 : BitVec 24).toNat = 0x400000 + (3 : CtxId).val * 0x4000 + 8 * (63 : SReg).val ∧
    (0x40C310 : BitVec 24).toNat = 0x400310 + (3 : CtxId).val * 0x4000 ∧ (State.reset.core 0).record = none := by
  refine ⟨by decide, by decide, rfl, by and_intros <;> decide⟩
/-- A command whose record waits for the next handler, and a head that would free more records than stand (R416). -/
def lateQ : State := (queued aCommand).setTrapQ 0 ⟨[{ aRecord with src := 2, info := 9 }], 1, 1, 1, 0⟩
theorem wit_HandlerReturns_late : (lateQ.core 0).command 9 = some aCommand ∧ lateQ.lateCommand 0 9 = true ∧ (queued aCommand).lateCommand 0 9 = false ∧
    (lateQ.trapQ 0).records.length - (lateQ.trapQ 0).late < (1 - (lateQ.trapQ 0).head).toNat := by decide
/-- Core 0 frozen for a reply, at the limit of the gauntlet. -/
def frozen (n : Nat) : State := onCore fun k => { k with freeze := some ⟨.reply, 0, n, n, true, [0]⟩ }
def aSaved : SavedGroup := ⟨0, 7, 0, 0x100000, [0], [], [], [], [], [], [], []⟩
def savedState : State := (launched State.reset aLaunch).mapDie 0 fun d => { d with saved := [aSaved] }
theorem wit_LimitsAndKills : ((frozen (2 ^ 21)).core 0).freeze = some ⟨.reply, 0, 2 ^ 21, 2 ^ 21, true, [0]⟩ ∧ ((frozen (2 ^ 21)).core 0).record = none ∧
    2 ^ (min 28 (max 16 ((frozen (2 ^ 21)).die 0).gauntLg.toNat)) ≤ 2 ^ 21 ∧ ((frozen (2 ^ 21)).trapQ 0).records.length < 32 ∧
    (((trapped 0).core 0).record = some ⟨aRecord, true, [0xF8080000, 0]⟩ ∧ ((trapped 0).die 0).svclim ≠ 0) ∧ (0 : CoreId) = coreOn 0 (0 : BitVec 8).toNat ∧
    ((savedState.die 0).saved = [aSaved] ∧ aSaved.area = (16 : BitVec 36).toNat * 65536 ∧ (0 : CtxId) ∈ aSaved.ctxs ∧
      ((savedState.die 0).launches.find? fun l => l.id == aSaved.launch) = some aLaunch ∧ (savedState.savedCtx aSaved aLaunch 0).st ≠ .retired) := by decide
/-- A live task on core 0: free to be preempted, being preempted, and saved with nothing outstanding. -/
def living (st : CtxState) (pctl : BitVec 2) (held : Bool) : State := onCore fun k =>
  { k.mapCtx 0 (fun y => { y with st := st, held := held }) with pctlState := pctl, pctlArea := 0x100000, pctlImg := 0x100000 }
theorem wit_Preemption : ((living .ready 0 false).core 0).pctlState = 0 ∧ (living .ready 0 false).coreEnabled 0 = true ∧ (living .ready 0 false).areaOk 0 (0x100000 : BitVec 52).toNat = true ∧
    ((living .ready 0 false).ctx 0 0).st ∉ [CtxState.free, .retired, .saved] ∧ ((living .ready 0 false).core 0).record = none ∧
    (((living .ready 1 true).core 0).pctlState = 1 ∧ ((living .ready 1 true).core 0).pctlForce = false ∧
      (∀ y ∈ ((living .ready 1 true).core 0).present, ((living .ready 1 true).ctx 0 y).held = true ∨ ((living .ready 1 true).ctx 0 y).st = .retired) ∧
      ∃ y ∈ ((living .ready 1 true).core 0).present, ((living .ready 1 true).ctx 0 y).st ≠ .retired) ∧
    (((living .ready 2 true).core 0).pctlState = 2 ∧ (living .ready 2 true).drained 0 = true ∧ ((living .ready 2 true).core 0).liveCtxs ≠ []) ∧
    0x100000 = ((living .ready 2 true).core 0).pctlImg.toNat := by decide
/-- A live task of a launch whose kill finds the ring of kill records absent, full, or with room, with one store outstanding. -/
def killing (ls tail : Nat) : State := (launched (living .ready 0 false) aLaunch).mapDie 0 fun d => { d with krLsize := BitVec.ofNat _ ls, krTail := BitVec.ofNat _ tail }
theorem wit_LimitsAndKills_record : (0 : CoreId) = coreOn 0 (0 : BitVec 8).toNat ∧ (killing 1 1).memOk ∧ ((killing 1 1).ctx 0 0).st ∉ [CtxState.free, .retired, .saved] ∧
    ((killing 1 1).ctx 0 0).grd = false ∧ (killing 1 1).launchOf 0 0 = some aLaunch ∧ ((killing 0 0).die 0).krLsize = 0 ∧
    (((killing 1 2).die 0).krLsize ≠ 0 ∧ (((killing 1 2).die 0).krTail - ((killing 1 2).die 0).krHead).toNat = 2 ^ ((killing 1 2).die 0).krLsize.toNat) ∧
    (((killing 1 1).die 0).krTail - ((killing 1 1).die 0).krHead).toNat ≠ 2 ^ ((killing 1 1).die 0).krLsize.toNat ∧
    (storing.core 0).accesses = [anAccess .store 0x40000 false] ∧ (anAccess .store 0x40000 false).ctx = 0 ∧ (anAccess .store 0x40000 false).pa < 2 ^ 52 := by
  refine ⟨by decide, rfl, ?_⟩
  and_intros <;> decide
/-- A context that is still Placed on a core that is being switched, and a core whose image fits. -/
theorem wit_Preemption_image : ((living .placed 2 false).core 0).pctlState = 2 ∧ (∃ y, ((living .placed 2 false).ctx 0 y).st = .placed) ∧ ImageFits (living .ready 2 true) 0 ∧
    (living .ready 2 true).memOk ∧ ((living .ready 2 true).ctx 0 0).via = none :=
  ⟨by decide, ⟨0, by decide⟩, ⟨by decide, by decide, by decide, by decide⟩, rfl, by decide⟩
/-- One outstanding access of core 0. -/
def accessing (kind : AccKind) (pa : Nat) (performed : Bool) : State := onCore fun k => { k with accesses := [anAccess kind pa performed], nextAcc := 1 }
theorem wit_AccessesAtHome : ((8 : Nat) = 4 ∨ (8 : Nat) = 8) ∧ 2 ^ 64 - 1 < 256 ^ 8 ∧ ((accessing .store 0x40000 false).core 0).access 0 = some (anAccess .store 0x40000 false) ∧
    ((accessing .store 0x40000 false).core 0).waitsFor (accessing .store 0x40000 false) (anAccess .store 0x40000 false) = false ∧ regionClass 0x40000 = some .hbm ∧
    (anAccess (.load true) 0x40000 true).performed = true ∧ (anAccess (.load true) 0x40000 true).bufMask = 0 ∧ (anAccess (.load true) 0x40000 true).size ∈ [1, 2, 4, 8] ∧
    ((accessing (.amo .cas) 0x40000 false).core 0).waitsFor (accessing (.amo .cas) 0x40000 false) (anAccess (.amo .cas) 0x40000 false) = false ∧
    ((accessing (.nbop .addF32) 0x40000 false).core 0).waitsFor (accessing (.nbop .addF32) 0x40000 false) (anAccess (.nbop .addF32) 0x40000 false) = false ∧
    regionClass 0x8000000000000 = some .remote ∧ ((accessing .store 0x8000000000000 true).core 0).access 0 = some (anAccess .store 0x8000000000000 true) := by decide
/-- Loads and atomics that have been performed, at home and in another package, a load that meets no unordered write, and one row of R209. -/
theorem wit_AccessesAtHome_replies : ((accessing (.amo .add) 0x40000 true).core 0).access 0 = some (anAccess (.amo .add) 0x40000 true) ∧ (anAccess (.amo .add) 0x40000 true).size ∈ [1, 2, 4, 8] ∧
    ((accessing (.load true) 0x8000000000000 true).core 0).access 0 = some (anAccess (.load true) 0x8000000000000 true) ∧ (accessing (.load true) 0x40000 false).poison = [] ∧
    meeting (((accessing (.load true) 0x40000 false).core 0).openFor 0 .core) 0x40000 8 = [] ∧ (31 < 256 / NbOp.addF64.width) ∧
    (nearBankValues.map fun r => r.1).contains .scaleF64 = true := by and_intros <;> decide
/-- The last acquire of a bundle, whose other load and store of the scratchpad wait for it; and one after which another acquire is awaited. -/
def acquiring (others : List Access) : State := onCore fun k => { k with accesses := { anAccess (.load true) 0x40000 true with acq := true } :: others
                                                                         inflight := [⟨0, .s 1, 0, 4, false, false, some 0, none, none, [⟨0, 64, 0x1FFFF8, 8, true, 0, 0⟩]⟩]
                                                                         heldStores := [(0, .spad 0x1FFFF8 8 5)] }
theorem wit_AccessesAtHome_acquire : LastAcquire (acquiring []) 0 { anAccess (.load true) 0x40000 true with acq := true } ∧
    ¬LastAcquire (acquiring [{ anAccess (.load true) 0x40008 true with id := 1, acq := true }]) 0 { anAccess (.load true) 0x40000 true with acq := true } ∧
    ((acquiring []).core 0).access 0 = some { anAccess (.load true) 0x40000 true with acq := true } ∧ Current (acquiring []) .core 0 0x1FFFF8 8 ∧ (acquiring []).memOk ∧
    ((acquiring []).core 0).inflight = [⟨0, .s 1, 0, 4, false, false, some 0, none, none, [⟨0, 64, 0x1FFFF8, 8, true, 0, 0⟩]⟩] ∧
    ((acquiring []).core 0).heldStores.filter (fun p => p.1 == 0) = [(0, .spad 0x1FFFF8 8 5)] ∧ 0x1FFFF8 + 8 ≤ 0x200000 := by
  refine ⟨by unfold LastAcquire; decide, by unfold LastAcquire; decide, by decide, current_of (by decide) (by decide) (by decide) (by decide), rfl, by decide, by decide, by decide⟩
theorem wit_CoreSteps : (paged State.reset).localHbm 0 = true ∧ Memory.read (paged State.reset).mem 0 8 = 2 ^ 63 + 0x10000 ∧ Memory.read (paged State.reset).mem 8 8 = 0 ∧
    (2 ^ 63 + 0x10000) / 2 ^ 63 % 2 = 1 ∧ (2 ^ 63 + 0x10000) / 2 ^ 52 % 2 ^ 11 = 0 ∧ (2 ^ 63 + 0x10000) / 2 ^ 16 % 2 ^ 36 * 2 ^ 16 = 0x10000 ∧
    Memory.read (paged State.reset).mem (0x10000 + 8 * (0x10000 / 2 ^ 42 % 2 ^ 13)) 8 = 2 ^ 63 + 0x20000 ∧
    Memory.read (paged State.reset).mem (0x20000 + 8 * (0x10000 / 2 ^ 29 % 2 ^ 13)) 8 = 2 ^ 63 + 0x30000 ∧
    Memory.read (paged State.reset).mem (0x30000 + 8 * (0x10000 / 2 ^ 16 % 2 ^ 13)) 8 = 3 * 2 ^ 62 + 0x40000 ∧ (paged State.reset).classAt 0x40000 = some .hbm ∧ classCode 0 = some .hbm := by decide
theorem wit_CoreSteps_points : PointsTo (paged State.reset) (2 ^ 63 + 0x20000) 0x20000 ∧ PointsTo (paged State.reset) (2 ^ 63 + 0x30000) 0x30000 := by unfold PointsTo; decide
theorem wit_CoreSteps_walk : ((paged State.reset).walk 0 0 0x10000).toOption = some ⟨0, 0x10000, 0x10000, 0x40000, .hbm, false, 0, false⟩ := by decide
/-- A bundle of core 0 waits for a walk. -/
def awaiting : State := (mapped (onCore fun k => { k with freeze := some ⟨.walk, 0, 0, 0, false, []⟩ })).mapDie 0 fun d => { d with walks := [⟨0, 0, 0, 0x10000, false⟩] }
theorem wit_CoreSteps_await : (awaiting.walk 0 0 (0x10000 : BitVec 55).toNat).toOption = some page1 ∧ (awaiting.die 0).invBusy = false ∧
    (awaiting.die 0).walks = [⟨0, 0, 0, 0x10000, false⟩] ∧ (0x10000 : Nat) % 2 ^ 55 = (0x10000 : BitVec 55).toNat ∧ ((awaiting.core 0).freeze.map fun f => (f.cause, f.ctx)) = some (.walk, 0) := by decide
theorem wit_CoreSteps_events : 256 ≤ ((onCtx fun k => { k with runCount := 256 }).ctx 0 0).runCount ∧ (State.reset.core 0).rndCount < 16 ∧
    16 ≤ ((onCore fun k => { k with rndCount := 16 }).core 0).rndCount ∧ (onCtx fun k => { k with st := .retired }).canFree 0 0 = true ∧
    ∃ m ∈ ((onCore fun k => { k with mittenDrain := [⟨2, 0x40000, 0, 255, 1, false⟩] }).core 0).mittenDrain, m.ctx = 2 := by decide
/-- A freeze that awaits the random-bits queue, one that does not, a fused-off core, and a buffer with two units left to drain. -/
def draining : State := onCore fun k => { k with mittenDrain := [⟨2, 0x40000, 0, 255, 1, false⟩, ⟨2, 0x40008, 0, 1, 5, false⟩] }
theorem wit_CoreSteps_more : ((onCore fun k => { k with freeze := some ⟨.random, 0, 0, 0, false, [0]⟩ }).core 0).awaitsRandom = true ∧ ((frozen 0).core 0).halted = true ∧
    ((frozen 0).core 0).awaitsRandom = false ∧ State.reset.coreEnabled 48 = false ∧ ((draining.core 0).mittenDrain.filter fun m => m.ctx == 2) ≠ [] ∧ draining.memOk ∧
    (∀ m ∈ (draining.core 0).mittenDrain.filter fun m => m.ctx == 2, m.pa % 8 = 0 ∧ regionClass m.pa = some .hbm) ∧
    (((draining.core 0).mittenDrain.filter fun m => m.ctx == 2).map (·.pa)).Nodup ∧ (∀ l ∈ (draining.die 0).launches, l.freed < l.tasks) :=
  ⟨by decide, by decide, by decide, by decide, by decide, rfl, by decide, by decide, by decide⟩
/-- A candidate launch of queue 63, checked and set up. -/
def readyLaunch : Launch := { checkedLaunch with gx := 2, nextGroup := 1 }
def placing : State := (launching.mapPkg fun p => { p with ready := true }).mapDie 0 fun d => { d with launches := [{ readyLaunch with queue := 63, started := true }] }
/-- The candidate of queue 63 is a saved group of core 0, which is idle (R373). -/
def aGroupSaved : SavedGroup := ⟨0, readyLaunch.id, 0, 0x100000, [0], [], [], [], [], [], [], []⟩
def restoring : State := (launching.mapPkg fun p => { p with ready := true }).mapDie 0 fun d =>
  { d with launches := [{ readyLaunch with queue := 63, started := true, nextGroup := 2 }], saved := [aGroupSaved] }
theorem wit_Preemption_restore : (restoring.die 0).batch = [] ∧ (restoring.die 0).ranked = [(63, .saved aGroupSaved)] ∧ (restoring.equalHeld 0 63 []).contains 0 = false ∧
    ((restoring.die 0).saved.filter fun h => h.core == aGroupSaved.core && h.area == aGroupSaved.area) = [aGroupSaved] ∧ aGroupSaved.group < readyLaunch.groups ∧
    (restoring.readImage readyLaunch.image).isSome = true ∧ (∀ x ∈ aGroupSaved.ctxs, (restoring.core 0).isVacant x = true) ∧ restoring.claimsFree aGroupSaved = true ∧
    (restoring.core 0).pctlState ≠ 1 ∧ (∀ a ∈ (restoring.die 0).arms, a.core = 0 → a.saved ≠ some 0x100000) := by
  and_intros <;> decide
theorem wit_Preemption_fits : (((restoring.die 0).launches.find? fun l => l.id == aGroupSaved.launch).map fun l => restoring.fits 0
    { l.need 0 with n := 0, current := (aGroupSaved.ctxs.countP fun x => (restoring.savedCtx aGroupSaved l x).st == .placed) * l.current } 0) = some true := by decide
theorem wit_LaunchSteps : placing.pkg.ready = true ∧ State.reset.pkg.ready = false ∧ ((placing.mapQueue 0 63 fun y => { y with age := 1 }).die 0).candidate 63 ≠ none ∧
    (((placing.mapQueue 0 63 fun y => { y with age := 1 }).die 0).queue 63).age ≠ 0 ∧ ((launching.die 0).queue 63).en = true ∧ ((launching.die 0).queue 63).park = false ∧
    ((launching.die 0).queue 63).head ≠ ((launching.die 0).queue 63).tail ∧ launching.readFault 0x80000 256 = none ∧
    (match ({ launching with mem := [] }).headEntry aQueue with | .error e => e.1 | .ok _ => 0) = 3 := by decide
theorem wit_LaunchSteps_fetch : (((launching.die 0).queue 63).tail - ((launching.die 0).queue 63).head).toNat ≤ 2 ^ ((launching.die 0).queue 63).lg ∧
    0x70000 = ((launching.die 0).queue 63).base.toNat + 16 * (((launching.die 0).queue 63).head.toNat % 2 ^ ((launching.die 0).queue 63).lg) ∧
    launching.localHbm 0x70000 = true ∧ launching.localHbm (0x70000 + 15) = true ∧ launching.poison = [] ∧ Memory.read launching.mem 0x70000 8 = 2 ^ 63 + 0x80000 ∧
    (2 ^ 63 + 0x80000) / 2 ^ 52 % 2 ^ 11 = 0 ∧ (2 ^ 63 + 0x80000) % 2 ^ 52 = 0x80000 ∧ 0x80000 % 256 = 0 ∧ launching.localHbm 0x80000 = true ∧ launching.localHbm (0x80000 + 255) = true := by decide
theorem wit_LaunchSteps_place : ((placing.die 0).ranked.map fun e => e.1) = [63] ∧ recordFieldsOk (fun j => placing.word (readyLaunch.recPa + 8 * j)) = true ∧
    choose 0 ((placing.namedCores 0 readyLaunch.cores).filter fun c => !(placing.equalHeld 0 63 []).contains c && placing.fits c (readyLaunch.need readyLaunch.nextGroup) 0) = some 0 ∧
    (placing.readImage readyLaunch.image).isSome = true := (by constructor <;> decide)
theorem wit_LaunchSteps_candidate : (placing.die 0).batch = [] ∧ readyLaunch.checked = true ∧ readyLaunch.whole = false ∧ readyLaunch.exactTasks = [] ∧
    readyLaunch.nextGroup < readyLaunch.groups ∧ ((placing.die 0).placed.map fun z => z.id) = [readyLaunch.id] := by decide
/-- A graph of one node with nothing before it. -/
def aNode : GNode := ⟨((Vector.replicate 8 0).set 1 0x80000 : Vector Word 8), [], 0, false, false, false⟩
def aGraph : Graph := ⟨4, 63, 0, false, [aNode], none⟩
theorem wit_LaunchSteps_node : ((launching.mapDie 0 fun d => { d with graphs := [aGraph] }).die 0).graphs.find? (fun g => g.id == 4) = some aGraph ∧ aGraph.node 0 = some aNode ∧
    launching.nodeReady aGraph 0 aNode = true ∧ launching.readFault (aNode.w[1].toNat % 2 ^ 52) 256 = none ∧
    ((0, 0) ∈ ((onDie fun d => { d with batch := [(0, 0)] }).die 0).batch) := by decide
/-- The last context of a launch of one task has ended (R341). -/
def lastLaunch : Launch := { checkedLaunch with id := 7, gx := 1, nextGroup := 1 }
def retiring : State := launched (onCtx fun y => { y with st := .retired }) lastLaunch
theorem wit_LaunchSteps_retire : retiring.canFree 0 0 = true ∧ retiring.launchOf 0 0 = some lastLaunch ∧ lastLaunch.guard = false ∧ (retiring.ctx 0 0).group < lastLaunch.groups ∧
    lastLaunch.checked = true ∧ lastLaunch.groups ≤ lastLaunch.nextGroup ∧ lastLaunch.tasks ≤ lastLaunch.freed + 1 ∧ lastLaunch.exactTasks = [] ∧
    lastLaunch.exactSent = lastLaunch.exactFreed ∧ lastLaunch.commits = 0 ∧ lastLaunch.node = none ∧ retiring.memOk :=
  ⟨by decide, by decide, by decide, by decide, by decide, by decide, by decide, by decide, by decide, by decide, by decide, rfl⟩
/-- A ready part. -/
def onPart (f : Die → Die) : State := (onDie f).mapPkg fun p => { p with ready := true }
/-- An invalidation of everything, and a deactivation, in progress. -/
def invalidating : State := onPart fun d => { d with invBusy := true, invRun := ⟨0, 0, true, false, 0⟩ }
def deactivating : State := onPart fun d => { d with grpBusy := true, grpRun := some ⟨0, 0, []⟩ }
theorem wit_TableControl : (onPart id).pkg.ready = true ∧ ((onPart id).die 0).invBusy = false ∧ (invalidating.die 0).invBusy = true ∧ invalidating.pkg.ready = true ∧
    ((onPart id).die 0).grpBusy = false ∧ (deactivating.die 0).grpBusy = true ∧ (deactivating.die 0).grpRun = some ⟨0, 0, []⟩ ∧ deactivating.pkg.colls = [] ∧
    (onPart id).fieldEnabled 1 3 = true ∧ State.reset.pkg.ready = false ∧ (0xC30 : BitVec 24).toNat / 8 ≥ 0xC30 / 8 := by decide
theorem wit_TableControl_quiet : invalidating.invQuiet 0 = true ∧ ∀ q ∈ deactivating.groupCommands 0 0, q ∉ ([] : List (CoreId × Word32)) := by
  refine ⟨?_, fun _ _ h => nomatch h⟩
  simp [State.invQuiet, invalidating, onPart, onDie, State.mapPkg, State.mapDie, State.setDie, State.die, State.core, State.reset, Core.reset, Die.reset]
theorem wit_TableControl_group : (match (withWords (onPart fun d => { d with gtbase := 0xA0000 }) [(0xA0008, 0xB0000)]).readGroup 0 0 with | .ok g => g.members.length | .error _ => 0) = 1 ∧
    (match (withWords (onPart fun d => { d with gtbase := 0xA0000 }) [(0xA0008, 2 ^ 52 + 0xB0000)]).readGroup 0 0 with | .ok _ => 0 | .error e => e) ≠ 0 := by decide
/-- A bring-up that nothing fails (R404). -/
theorem wit_PowerAndLinks : State.reset.pkg.mbBusy = false ∧ State.reset.pkg.ready = false ∧ State.reset.pkg.code = 0 ∧ (814 : Nat) < 815 ∧ State.reset.pkg.isHost 0 = false ∧
    ((State.reset.mapPkg fun p => { p with m0 := true }).pkg.isHost 0 = true) ∧ State.reset.fieldEnabled (1 : DieId).val (3 : Fin 4).val = true ∧
    ((State.reset.ctx 0 0).st = .free ∧ ((trapped 0).ctx 0 0).st ∉ [CtxState.free, .retired, .saved]) ∧
    (regionClass 0x40000000000 = some .tier ∧ (State.reset.mapPkg fun p => { p with tkind := 1, tier := 1 }).assigned 0x40000000000 = true) := by decide
theorem wit_PowerAndLinks_boot : ∃ b : BootRun, b.fail = none ∧ b.m0 = false ∧ b.m1 = false := ⟨⟨false, false, false, 0, 0, 0, 0, none⟩, rfl, rfl, rfl⟩
/-- Straps that no part has, which fail at their step (R402). That the images of bring-up are accepted is open (assumption 89). -/
theorem wit_PowerAndLinks_straps : (State.reset.mapPkg fun p => { p with step := 2 }).pkg.step = 2 ∧
    (∃ b : BootRun, b.fail = none ∧ b.m0 = true ∧ b.m1 = true) ∧ ∃ b : BootRun, b.fail = none ∧ b.m0 = false ∧ b.m1 = false ∧ b.lpddr = true ∧ b.tier = 0 :=
  ⟨by decide, ⟨⟨true, true, false, 0, 0, 0, 0, none⟩, rfl, rfl, rfl⟩, ⟨⟨false, false, true, 0, 0, 0, 0, none⟩, rfl, rfl, rfl, rfl, rfl⟩⟩
/-- A buffer at 0x100000 (R414). -/
def mailing : State := State.reset.mapPkg fun p => { p with mbBuf := 0x100000 }
/-- That an image is accepted, a key unwraps, or a package stands in a slot is open (assumptions 8 and 10), so no one state is shown to meet that hypothesis. -/
theorem wit_MailboxCommands : mailing.pkg.mbBusy = false ∧ mailing.mailBuffer = some 0x100000 ∧
    State.reset.pkg.mbArg[0].toNat < 4096 ∧ State.reset.slotNamed State.reset.pkg.mbArg[0].toNat = false ∧ State.reset.pkg.fw.staged = none ∧
    (mailing.mapPkg fun p => { p with mbBuf := 0x100001 }).mailBuffer = none ∧ (10 : Nat) ≤ (10 : BitVec 8).toNat ∧
    sliceNat [0, 0, 0, 0, 3] 4 1 = 3 ∧ sliceNat [0, 0, 0, 0, 4] 4 1 = (3 : Fin 4).val + 1 := by decide
theorem wit_MailboxCommands_bad : mailing.bufferImage 0x100000 [1, 2, 3] = .error 1 := rfl
theorem wit_MailboxCommands_handler : ∀ cl, (State.reset.trapQ cl).records = [] := by
  intro cl; simp [State.trapQ, State.reset]
/-- A busy mailbox, and a handler image that waits: with a record of core 0 still to be served, and with none. -/
def staging (t : State) : State := t.mapPkg fun p => { p with mbBusy := true, fw := { p.fw with staged := some [0, 0, 0, 0, 3], waitHandler := true } }
theorem wit_MailboxCommands_wait : (staging State.reset).pkg.mbBusy = true ∧ (staging State.reset).pkg.fw.staged = some [0, 0, 0, 0, 3] ∧ (staging State.reset).pkg.fw.waitHandler = true ∧
    ((staging (trapped 0)).served 0 ≠ none) ∧ ((staging (fullQueue State.reset)).trapQ 0).records.length ≠ ((staging (fullQueue State.reset)).trapQ 0).late := by decide
theorem wit_MailboxCommands_idle : (∀ cl, ((staging State.reset).trapQ cl).records.length = ((staging State.reset).trapQ cl).late) ∧ ∀ c, (staging State.reset).served c = none := by
  refine ⟨fun cl => ?_, fun c => ?_⟩ <;> simp [staging, State.mapPkg, State.trapQ, State.served, State.lateRecord, State.core, State.reset, Core.reset]
theorem wit_InboundTraffic : ([1] : List Byte) ≠ [] ∧ State.reset.bar2 0 0x40000 1 = false ∧ (onPart id).bar2 0 0x40000 8 = true ∧ (onPart id).memOk ∧ (onPart id).poison = [] ∧
    (onPart id).bar2 0 0x9000000000 8 = false ∧ 0x40000 < 2 ^ 43 ∧ 0x40000 % 8 = 0 ∧ (onPart id).isLined 0x40000 = true := by
  refine ⟨by decide, by decide, by decide, rfl, by and_intros <;> decide⟩

/-! ### Single steps of the other families, by hand from the rules -/

/-- The codes of the faults that a slot raises. -/
def faultsOf (o : Out) : List Nat :=
  match o with
  | .next t => t.issue.faults.map fun f => f.code.toNat
  | _ => []
/-- Vectors 1 and 2 hold one value in every 32-bit element. -/
def vectors (a b : Nat) : State := onCtx fun k => { k with v := (k.v.set 1 (BitVec.ofNat 2048 (a * ((2 ^ 2048 - 1) / (2 ^ 32 - 1))))).set 2 (BitVec.ofNat 2048 (b * ((2 ^ 2048 - 1) / (2 ^ 32 - 1)))) }
def laneOf (o : Out) (w l : Nat) : Option Nat := ((inflightOf o).head?.bind fun e => e.2.2).map fun v => v / 2 ^ (w * l) % 2 ^ w
theorem test_load_sign : inflightOf (exec (.ldI8 .always 3 1 (.reg 2)) (withWords (regs 8 0) [(0x10000000008, 0xFF)])) = [(.s 3, 4, some (2 ^ 2048 / 2 ^ 1984 - 1))] := by decide
theorem test_load_misaligned : faultsOf (exec (.ld64 .always 3 1 (.reg 2)) (regs 4 0)) = [0x20] := by decide
theorem test_store_outside : faultsOf (exec (.st8 .always 3 1 (.reg 2)) (regs 0x200000 0)) = [0x11] := by decide
theorem test_compare_signed : inflightOf (exec (.cmpLt .always 3 1 (.reg 2)) (regs 0xFFFFFFFFFFFFFFFF 0)) = [(.p 3, 1, some 0xFFFFFFFFFFFFFFFF)] ∧
    inflightOf (exec (.cmpLtN .always 3 1 (.reg 2)) (regs 0xFFFFFFFFFFFFFFFF 0)) = [(.p 3, 1, some 0)] := by decide
theorem test_vadd_wraps : laneOf (exec (.vadd .always .n32 3 (.reg 1) (.src (.reg 2))) (vectors 0xFFFFFFFF 2)) 32 63 = some 1 := by decide
theorem test_vaddS_clamps : laneOf (exec (.vaddS .always .i32 3 (.reg 1) (.src (.reg 2))) (vectors 0x7FFFFFFF 1)) 32 5 = some 0x7FFFFFFF := by decide
/-- 1.5 + 2.25 = 3.75. -/
theorem test_vadd_float : laneOf (exec (.vadd .always .f32 3 (.reg 1) (.src (.reg 2))) (vectors 0x3FC00000 0x40100000)) 32 9 = some 0x40700000 := by decide
theorem test_call : (match exec (.call .always 0x3FFFF) ({ State.reset with issue := { State.reset.issue with pc := 8, len := 1 } }) with
    | .next t => (t.issue.jump, t.me.inflight.map fun e => (e.dest, e.val)) | _ => (none, [])) = (some 4, [(.s 63, some 12)]) := by decide
theorem test_format_reserved : faultsOf (exec (.fmtset .always (.reg 1)) (regs 6 0)) = [0x18] := by decide
theorem test_accumulator_unowned : faultsOf (exec (.mzero (.on 0 false) 0) State.reset) = [0x10] := by decide
theorem test_channel_invalid : faultsOf (exec (.chsend .always (.scalar 1) (.reg 2)) (regs 0 5)) = [0x32] := by decide
theorem test_misaligned_barrier : faultsOf (exec (.tbwait .always 1 (.reg 2)) (regs 8 0)) = [0x20] := by decide
end Sys2Proof.Tests
end

section
/-!
PROOFS. Table control and registers of a die (R4, R273 to R275, R282, R294, R295, R325, R355, R414): invalidations, the operations on address groups, and
which bits a register write leaves to be read back.
-/
namespace Sys2Proof.Machine
open Sys2Proof.Claims

/-! ### Events that wait for the part to be ready (R397) -/

theorem State.whenReady_ready {s : State} (h : s.pkg.ready = true) (f : State → State) : s.whenReady f = f s := by simp [State.whenReady, h]

/-! ### Invalidation (R282) -/

theorem State.invalidate_idle {s : State} {d : DieId} (h : (s.die d).invBusy = false) (all glob : Bool) (asid : BitVec 14) :
    s.invalidate d true all glob asid = s.mapDie d fun y =>
      { y with invBusy := true, invAll := all, invG := glob, invAsid := asid, invRun := ⟨y.invva, y.invlen, all, glob, asid⟩, walks := y.walks.map fun w => { w with old := true } } := by
  simp [State.invalidate, State.mapDie, h]
theorem State.invalidate_busy {s : State} {d : DieId} (h : (s.die d).invBusy = true) (all glob : Bool) (asid : BitVec 14) :
    s.invalidate d true all glob asid = s.mapDie d fun y => { y with invAll := all, invG := glob, invAsid := asid } := by
  simp [State.invalidate, State.mapDie, h]
/-- Dropping staged tiles of every core changes no memory, no die and no context. -/
theorem State.dropTiles_all_frame (s : State) (d : DieId) (l : List CoreId) :
    (l.foldl (fun t c => t.dropTiles d c) s).mem = s.mem ∧ (∀ e, (l.foldl (fun t c => t.dropTiles d c) s).die e = s.die e) ∧
      ∀ c x, (l.foldl (fun t c => t.dropTiles d c) s).ctx c x = s.ctx c x :=
  ⟨foldl_keeps (fun t : State => t.mem) _ (fun t a => by simp [State.dropTiles]) _ _, fun e => foldl_keeps (fun t : State => t.die e) _ (fun t a => by simp [State.dropTiles]) _ _,
    fun c x => foldl_keeps (fun t : State => t.ctx c x) _ (fun t a => by
      by_cases h : a = c
      · subst h; simp [State.ctx, State.dropTiles, Core.ctx]
      · simp [State.ctx, State.dropTiles, h]) _ _⟩
/-- The completion of an invalidation drops the covered kept translations and no others (R282). -/
theorem exec_invalidationComplete {s : State} {d : DieId} (hb : (s.die d).invBusy = true) (hq : s.invQuiet d = true) :
    ∃ t, exec (.invalidationComplete d) s = .next t ∧ (t.die d).invBusy = false ∧ t.mem = s.mem ∧
      (∀ k, k ∈ (t.die d).tlb ↔ k ∈ (s.die d).tlb ∧ (s.die d).invRun.covers k = false) ∧ ∀ c x, t.ctx c x = s.ctx c x := by
  obtain ⟨hmem, hdie, hctx⟩ := s.dropTiles_all_frame d (coresOn d)
  refine ⟨_, show execInvalidationComplete d s = _ by rw [execInvalidationComplete, hb, hq], by simp, by simp [hmem], fun k => ?_, fun c x => by simp [hctx]⟩
  simp [hdie]

/-! ### Address groups (R292 to R295) -/

/-- Writes of no context change the lines of a die, and not its address groups. -/
theorem State.otherWrite_groups (s : State) (d : DieId) (pa : Nat) (b : List Byte) : ((s.otherWrite pa b).die d).groups = (s.die d).groups := by
  have memWrite (t : State) : (t.memWrite pa b).die d = t.die d := by simp [State.die]
  unfold State.otherWrite State.writeBy
  split
  · rfl
  · split
    · rw [memWrite]
      refine foldl_keeps (fun t : State => (t.die d).groups) _ (fun t i => ?_) _ _
      rw [State.mapDie, State.die_setDie]
      split
      · next h => subst h; rfl
      · rfl
    · rw [memWrite]
theorem State.activate_ok {s : State} {d : DieId} {i : BitVec 10} {g : GroupCopy} (hb : (s.die d).grpBusy = false) (hg : s.readGroup d i = .ok g) :
    ((s.activate d i).die d).grpStatus = 0 ∧ ((s.activate d i).die d).grpIndex = i ∧
      ((s.activate d i).die d).groups = g :: (s.die d).groups.filter fun h => h.idx != i.toNat := by
  simp [State.activate, hb, hg, State.otherWrite_groups]
theorem State.activate_error {s : State} {d : DieId} {i : BitVec 10} {e : Nat} (hb : (s.die d).grpBusy = false) (hg : s.readGroup d i = .error e) :
    s.activate d i = s.mapDie d fun y => { y with grpIndex := i, grpStatus := BitVec.ofNat 4 e } := by simp [State.activate, hb, hg]
theorem State.activate_busy {s : State} {d : DieId} (hb : (s.die d).grpBusy = true) (i : BitVec 10) :
    s.activate d i = s.mapDie d fun y => { y with grpStatus := 3 } := by simp [State.activate, hb]
theorem State.deactivate_idle {s : State} {d : DieId} (hb : (s.die d).grpBusy = false) (i : BitVec 10) :
    s.deactivate d i = s.mapDie d fun y => { y with grpIndex := i, grpBusy := true, grpRun := some ⟨i, s.pkg.nextColl, s.groupCommands d i.toNat⟩ } := by
  simp [State.deactivate, State.mapDie, hb]
theorem State.deactivate_busy {s : State} {d : DieId} (hb : (s.die d).grpBusy = true) (i : BitVec 10) :
    s.deactivate d i = s.mapDie d fun y => { y with grpStatus := 3 } := by simp [State.deactivate, State.mapDie, hb]
/-- A group is quiet when every collective and every transpose that names it came after the op (R295). -/
theorem State.groupQuiet_of {s : State} {d : DieId} {r : GroupRun} (hc : ∀ o ∈ s.pkg.colls, o.core.die = d → o.group = r.index.toNat → r.colls ≤ o.id)
    (hq : ∀ q ∈ s.groupCommands d r.index.toNat, q ∉ r.cmds) : s.groupQuiet d r = true := by
  have colls : ∀ o ∈ s.pkg.colls, (¬o.core.die = d ∨ ¬o.group = r.index.toNat) ∨ r.colls ≤ o.id := fun o ho => by
    by_cases same : o.core.die = d ∧ o.group = r.index.toNat
    · exact .inr (hc o ho same.1 same.2)
    · exact .inl (Decidable.not_and_iff_not_or_not.mp same)
  simpa [State.groupQuiet] using ⟨colls, fun c tag h => hq (c, tag) h⟩
theorem exec_deactivateComplete {s : State} {d : DieId} {r : GroupRun} (hb : (s.die d).grpBusy = true) (hr : (s.die d).grpRun = some r)
    (hq : s.groupQuiet d r = true) : exec (.deactivateComplete d) s = .next (s.mapDie d fun y =>
      { y with grpBusy := false, grpRun := none, grpStatus := 0, groups := y.groups.filter fun g => g.idx != r.index.toNat }) := by
  show execDeactivateComplete d s = _
  rw [execDeactivateComplete, hr]
  simp [hb, hq]

/-! ### Registers (R4, R273, R355, R414) -/

theorem toNat_wordOf {n : Nat} (h : n < 2 ^ 64) : (wordOf n).toNat = n := by simp only [wordOf, BitVec.toNat_ofNat]; omega
/-- An aligned offset other than MBCMD's: the write is one of a register of the block (R4). -/
theorem exec_registerWrite (s : State) (d : DieId) {off : BitVec 24} (v : Word) (h : off.toNat / 8 * 8 ≠ 0xC00) :
    exec (.registerWrite d off v) s = .next (s.putReg d (off.toNat / 8 * 8) v) :=
  congrArg Host.Outcome.next (if_neg h)
theorem State.putReg_mail (s : State) (d : DieId) {off : Nat} (v : Word) (h : 0xC00 ≤ off ∧ off < 0xC30) :
    s.putReg d off v = s.mapPkg fun p => p.putMail off v := by simp only [State.putReg, if_pos h]
theorem State.putReg_unready {s : State} (hr : s.pkg.ready = false) (d : DieId) {off : Nat} (v : Word) (h : ¬(0xC00 ≤ off ∧ off < 0xC30)) :
    s.putReg d off v = s := by simp [State.putReg, h, hr]
theorem State.putReg_table {s : State} (hr : s.pkg.ready = true) (d : DieId) {off : Nat} (v : Word) (h : off < 0x100) :
    s.putReg d off v = s.putTable d off v := by
  simp only [State.putReg, hr, if_pos h, if_neg (show ¬(0xC00 ≤ off ∧ off < 0xC30) by omega)]; rfl
theorem State.putReg_fault {s : State} (hr : s.pkg.ready = true) (d : DieId) {off : Nat} (v : Word) (h : 0x2000 ≤ off ∧ off < 0x2800) :
    s.putReg d off v = s.putFault d off v := by
  simp only [State.putReg, hr, if_pos h.2, if_neg (show ¬(0xC00 ≤ off ∧ off < 0xC30) by omega), if_neg (show ¬off < 0x100 by omega),
    if_neg (show ¬off < 0x1000 by omega), if_neg (show ¬off < 0x2000 by omega)]; rfl
theorem State.readReg_mail {s : State} (hr : s.pkg.ready = true) (d : DieId) {off : Nat} (h : 0xC00 ≤ off ∧ off < 0xC30) :
    s.readReg d off = wordOf (s.pkg.readReg off) := by
  simp only [State.readReg, hr, if_neg (show ¬off < 0x100 by omega), if_neg (show ¬off < 0x180 by omega), if_neg (show ¬(0x820 ≤ off ∧ off < 0x840) by omega),
    if_pos (show off < 0x1000 by omega)]; rfl
theorem State.readReg_table {s : State} (hr : s.pkg.ready = true) (d : DieId) {off : Nat} (h : off < 0x100) :
    s.readReg d off = wordOf (s.readTable d off) := by simp only [State.readReg, hr, if_pos h]; rfl
theorem State.readReg_fault {s : State} (hr : s.pkg.ready = true) (d : DieId) {off : Nat} (h : 0x2000 ≤ off ∧ off < 0x2800) :
    s.readReg d off = wordOf ((s.die d).readFaultReg off) := by
  simp only [State.readReg, hr, if_neg (show ¬off < 0x100 by omega), if_neg (show ¬off < 0x180 by omega), if_neg (show ¬(0x820 ≤ off ∧ off < 0x840) by omega),
    if_neg (show ¬off < 0x1000 by omega), if_neg (show ¬off < 0x2000 by omega), if_pos h.2]; rfl

/-- A write of 64 bits to a register at an offset leaves a value to be read back, and changes no memory, no core and no trap queue. -/
def State.ReadsBack (s : State) (d : DieId) (off : Nat) (v : Word) (n : Nat) : Prop :=
  ∃ t, exec (.registerWrite d (BitVec.ofNat 24 off) v) s = .next t ∧ (t.readReg d off).toNat = n ∧ t.mem = s.mem ∧ t.cores = s.cores ∧ t.traps = s.traps
theorem exec_registerWrite_at (s : State) (d : DieId) {off : Nat} (v : Word) (ho : off % 8 = 0 ∧ off < 2 ^ 24 ∧ off ≠ 0xC00) :
    exec (.registerWrite d (BitVec.ofNat 24 off) v) s = .next (s.putReg d off v) := by
  have e : (BitVec.ofNat 24 off).toNat / 8 * 8 = off := by rw [BitVec.toNat_ofNat]; omega
  rw [exec_registerWrite s d v (by omega), e]
theorem State.readsBack_table {s : State} (hr : s.pkg.ready = true) (d : DieId) {off n : Nat} {v : Word} (f : Die → Die) (ho : off % 8 = 0 ∧ off < 0x100)
    (hw : s.putTable d off v = s.mapDie d f) (hn : (s.mapDie d f).readTable d off = n) (h : n < 2 ^ 64) : s.ReadsBack d off v n :=
  ⟨s.mapDie d f, by rw [exec_registerWrite_at _ _ _ (by omega), State.putReg_table hr d v ho.2, hw],
    by rw [State.readReg_table (by simpa using hr) d ho.2, hn, toNat_wordOf h], by simp, by simp, by simp⟩
theorem State.readsBack_fault {s : State} (hr : s.pkg.ready = true) (d : DieId) {off n : Nat} {v : Word} (f : Die → Die)
    (ho : off % 8 = 0 ∧ 0x2000 ≤ off ∧ off < 0x2800) (hw : s.putFault d off v = s.mapDie d f) (hn : (f (s.die d)).readFaultReg off = n) (h : n < 2 ^ 64) :
    s.ReadsBack d off v n :=
  ⟨s.mapDie d f, by rw [exec_registerWrite_at _ _ _ (by omega), State.putReg_fault hr d v ho.2, hw],
    by rw [State.readReg_fault (by simpa using hr) d ho.2, State.die_mapDie_self, hn, toNat_wordOf h], by simp, by simp, by simp⟩
theorem State.readsBack_mail {s : State} (hr : s.pkg.ready = true) (d : DieId) {off n : Nat} {v : Word} (ho : off % 8 = 0 ∧ 0xC08 ≤ off ∧ off < 0xC30)
    (hready : (s.pkg.putMail off v).ready = s.pkg.ready) (hn : (s.pkg.putMail off v).readReg off = n) (h : n < 2 ^ 64) : s.ReadsBack d off v n :=
  ⟨s.mapPkg fun p => p.putMail off v, by rw [exec_registerWrite_at _ _ _ (by omega), State.putReg_mail s d v (by omega)],
    by rw [State.readReg_mail (by simpa [hready] using hr) d (by omega), State.mapPkg_pkg, hn, toNat_wordOf h], rfl, rfl, rfl⟩
/-- What each listed register keeps of a written word (R273, R355, R414). -/
theorem State.readsBack_listed {s : State} (hr : s.pkg.ready = true) (d : DieId) (v : Word) :
    ∀ r ∈ [(0x000, v.toNat / 2 ^ 16 % 2 ^ 36 * 2 ^ 16), (0x008, v.toNat / 2 ^ 6 % 2 ^ 46 * 2 ^ 6), (0x010, v.toNat),
      (0x018, v.toNat), (0x2000, v.toNat % 2 ^ 5), (0x2008, v.toNat % 2 ^ 32), (0x2010, v.toNat % 2 ^ 52), (0x2020, v.toNat % 2 ^ 16), (0xC08, v.toNat), (0xC28, v.toNat % 2 ^ 52)],
    s.ReadsBack d r.1 v r.2 := by
  have hv := v.isLt
  simp only [List.forall_mem_cons, List.not_mem_nil, false_implies, implies_true, and_true]
  refine ⟨?asbase, ?gtbase, ?invva, ?invlen, ?gaunt, ?svclim, ?krbase, ?pfto, ?arg, ?buf⟩
  case asbase =>
    exact State.readsBack_table hr d (fun y => { y with asbase := wordOf (field 16 36 v * 2 ^ 16) }) (by decide) rfl
      (by rw [State.readTable, State.die_mapDie_self]; exact toNat_wordOf (n := v.toNat / 2 ^ 16 % 2 ^ 36 * 2 ^ 16) (by omega)) (by omega)
  case gtbase =>
    exact State.readsBack_table hr d (fun y => { y with gtbase := wordOf (field 6 46 v * 2 ^ 6) }) (by decide) rfl
      (by rw [State.readTable, State.die_mapDie_self]; exact toNat_wordOf (n := v.toNat / 2 ^ 6 % 2 ^ 46 * 2 ^ 6) (by omega)) (by omega)
  case invva => exact State.readsBack_table hr d (fun y => { y with invva := v }) (by decide) rfl (by simp [State.readTable]) hv
  case invlen => exact State.readsBack_table hr d (fun y => { y with invlen := v }) (by decide) rfl (by simp [State.readTable]) hv
  case gaunt => exact State.readsBack_fault hr d (fun y => { y with gauntLg := v.setWidth 5 }) (by decide) rfl (BitVec.toNat_setWidth ..) (by omega)
  case svclim => exact State.readsBack_fault hr d (fun y => { y with svclim := v.setWidth 32 }) (by decide) rfl (BitVec.toNat_setWidth ..) (by omega)
  case krbase => exact State.readsBack_fault hr d (fun y => { y with krbase := v.setWidth 52 }) (by decide) rfl (BitVec.toNat_setWidth ..) (by omega)
  case pfto => exact State.readsBack_fault hr d (fun y => { y with pfto := v.setWidth 16 }) (by decide) rfl (BitVec.toNat_setWidth ..) (by omega)
  case arg => exact State.readsBack_mail hr d (by decide) rfl (by simp [Pkg.putMail, Pkg.readReg]) hv
  case buf => exact State.readsBack_mail hr d (by decide) rfl (by simp [Pkg.putMail, Pkg.readReg]) (by omega)

/-- Settles O56: each clause is the meaning of its event on a part that is ready, or on a die whose operation is in progress. -/
theorem tableControl : Obligations.TableControl := by
  unfold Obligations.TableControl
  refine ⟨?invalidation, ?invalidationBusy, ?invalidated, ?group, ?groupBusy, ?deactivated, ?peak, ?written, ?unready⟩
  case invalidation =>
    intro s d all glob asid hr hb
    exact congrArg Host.Outcome.next ((State.whenReady_ready hr _).trans (State.invalidate_idle hb all glob asid))
  case invalidationBusy =>
    intro s d all glob asid hr hb
    exact congrArg Host.Outcome.next ((State.whenReady_ready hr _).trans (State.invalidate_busy hb all glob asid))
  case invalidated => exact fun s d hb hq => exec_invalidationComplete hb hq
  case group =>
    intro s d i hr hb
    have activate : exec (.activate d i) s = .next (s.activate d i) := congrArg Host.Outcome.next (State.whenReady_ready hr _)
    exact ⟨fun g hg => ⟨_, activate, State.activate_ok hb hg⟩, fun e he => by rw [activate, State.activate_error hb he],
      congrArg Host.Outcome.next ((State.whenReady_ready hr _).trans (State.deactivate_idle hb i))⟩
  case groupBusy =>
    intro s d i hr hb
    simp only [List.forall_mem_cons, List.not_mem_nil, false_implies, implies_true, and_true]
    exact ⟨congrArg Host.Outcome.next ((State.whenReady_ready hr _).trans (State.activate_busy hb i)),
      congrArg Host.Outcome.next ((State.whenReady_ready hr _).trans (State.deactivate_busy hb i))⟩
  case deactivated => exact fun s d hb r hr hc hq => exec_deactivateComplete hb hr (State.groupQuiet_of hc hq)
  case peak =>
    intro s d f hr hf
    exact congrArg Host.Outcome.next ((State.whenReady_ready hr _).trans (if_pos hf))
  case written => exact fun s d v hr => State.readsBack_listed hr d v
  case unready =>
    intro s d off v hr ho
    rw [exec_registerWrite s d v (by omega), State.putReg_unready hr d v (by omega)]

end Sys2Proof.Machine
end

section
/-!
PROOFS. What deliveries of data, arrivals at barriers and wake-ups leave of a core: its engines but for the notes of foreign writes, its contexts but for
their readiness and clocks, and no poison that was not there before.
-/
namespace Sys2Proof.Machine

/-! ### Engines up to the notes of foreign writes (R142, R179, R251) -/

/-- A command without the notes of foreign writes since its commit. -/
def Command.unnoted (q : Command) : Command := { q with dirty := [] }
/-- A transform without the notes of foreign writes since its start. -/
def XftOp.unnoted (x : XftOp) : XftOp := { x with dirty := [] }
/-- Two cores have the same engine sets, commands, transform and unacknowledged writes, but for the notes of foreign writes. -/
structure Core.EnginesAs (k l : Core) : Prop where
  eng0 : l.eng0 = k.eng0
  eng1 : l.eng1 = k.eng1
  sent : l.sent = k.sent
  copyq : l.copyq.map Command.unnoted = k.copyq.map Command.unnoted
  xft : l.xft.map XftOp.unnoted = k.xft.map XftOp.unnoted

theorem Core.EnginesAs.refl (k : Core) : k.EnginesAs k := ⟨rfl, rfl, rfl, rfl, rfl⟩
theorem Core.EnginesAs.trans {k l m : Core} (h : k.EnginesAs l) (g : l.EnginesAs m) : k.EnginesAs m :=
  ⟨g.eng0.trans h.eng0, g.eng1.trans h.eng1, g.sent.trans h.sent, g.copyq.trans h.copyq, g.xft.trans h.xft⟩
theorem Core.enginesAs_noteWrite (k : Core) (a n : Nat) : k.EnginesAs (k.noteWrite a n) :=
  ⟨rfl, rfl, rfl, by simp [Core.noteWrite, Command.unnoted], by cases h : k.xft <;> simp [Core.noteWrite, XftOp.unnoted, h]⟩
/-- The command of a tag by the unnoted queue alone. -/
theorem Core.command_unnoted (k : Core) (tag : Word32) : (k.command tag).map Command.unnoted = (k.copyq.map Command.unnoted).find? fun q => q.tag == tag := by
  rw [List.find?_map]; rfl
theorem Core.EnginesAs.command {k l : Core} (h : k.EnginesAs l) (tag : Word32) : (l.command tag).map Command.unnoted = (k.command tag).map Command.unnoted := by
  rw [Core.command_unnoted, Core.command_unnoted, h.copyq]
theorem Core.EnginesAs.command_none {k l : Core} (h : k.EnginesAs l) {tag : Word32} (e : k.command tag = none) : l.command tag = none := by
  simpa [e] using h.command tag
theorem Core.EnginesAs.command_some {k l : Core} (h : k.EnginesAs l) {tag : Word32} {q : Command} (e : k.command tag = some q) :
    ∃ y, l.command tag = some { q with dirty := y } := by
  obtain ⟨r, hr, hq⟩ : ∃ r, l.command tag = some r ∧ r.unnoted = q.unnoted := by simpa [e] using h.command tag
  refine ⟨r.dirty, hr.trans (congrArg some ?_)⟩
  cases r; cases q
  simpa [Command.unnoted] using hq
theorem Core.EnginesAs.awaitsAck {k l : Core} (h : k.EnginesAs l) (tag : Word32) : l.awaitsAck tag = k.awaitsAck tag := by
  simp only [Core.awaitsAck, h.sent]
theorem Core.EnginesAs.xft_none {k l : Core} (h : k.EnginesAs l) (e : k.xft = none) : l.xft = none := by simpa [e] using h.xft
theorem Core.enginesAs_length {k l : Core} (h : k.EnginesAs l) : l.copyq.length = k.copyq.length := by simpa using congrArg List.length h.copyq

/-! ### Commands by their tag -/

theorem Core.command_tag {k : Core} {tag : Word32} {q : Command} (h : k.command tag = some q) : q.tag = tag := by
  simpa using List.find?_some h
theorem Core.command_mapCommand (k : Core) (tag : Word32) (f : Command → Command) (hf : ∀ q, (f q).tag = q.tag) :
    (k.mapCommand tag f).command tag = (k.command tag).map f := by
  have same : ((fun q : Command => q.tag == tag) ∘ fun q => if q.tag = tag then f q else q) = fun q => q.tag == tag := by
    funext q; dsimp only [Function.comp]; split <;> simp [*]
  unfold Core.command Core.mapCommand
  rw [List.find?_map, same]
  cases h : k.copyq.find? fun q => q.tag == tag with
  | none => rfl
  | some q => simp [Core.command_tag (k := k) h]
theorem Core.command_dropCommand (k : Core) (tag : Word32) : (k.dropCommand tag).command tag = none := by
  simp [Core.command, Core.dropCommand]

/-! ### Deliveries -/

/-- A state comes from another by deliveries, arrivals and wake-ups alone. -/
structure State.Delivered (s t : State) : Prop where
  ctxs : s.Keeps t
  engines : ∀ c, (s.core c).EnginesAs (t.core c)
  poison : ∀ u ∈ t.poison, u ∈ s.poison

theorem State.Delivered.refl (s : State) : s.Delivered s := ⟨.refl s, fun _ => .refl _, fun _ h => h⟩
theorem State.Delivered.trans {s t u : State} (h : s.Delivered t) (g : t.Delivered u) : s.Delivered u :=
  ⟨h.ctxs.trans g.ctxs, fun c => (h.engines c).trans (g.engines c), fun x hx => h.poison x (g.poison x hx)⟩
theorem State.Delivered.of_cores {s t : State} (h : t.cores = s.cores) (hp : ∀ u ∈ t.poison, u ∈ s.poison) : s.Delivered t :=
  ⟨.of_cores h, fun c => by rw [State.core_of_cores h]; exact .refl _, hp⟩
theorem State.Delivered.foldl {α : Type} (f : State → α → State) (h : ∀ (t : State) a, t.Delivered (f t a)) (l : List α) (s : State) : s.Delivered (l.foldl f s) :=
  foldl_inv (fun t => s.Delivered t) f (fun t a k => k.trans (h t a)) l s (.refl s)
theorem State.delivered_mapCore {s : State} {c : CoreId} {f : Core → Core} (hx : (f (s.core c)).ctxs = (s.core c).ctxs) (he : (s.core c).EnginesAs (f (s.core c))) :
    s.Delivered (s.mapCore c f) :=
  ⟨.of_mapCore c f hx, fun e => by
    rw [State.core_mapCore]; split
    · next h => subst h; exact he
    · exact .refl _, fun _ h => h⟩
theorem State.delivered_mapCtx {s : State} {c : CoreId} {x : CtxId} {f : Ctx → Ctx}
    (h : ∀ k, ∃ st on_ readyAt pts, f k = { k with st := st, on_ := on_, readyAt := readyAt, pts := pts }) : s.Delivered (s.mapCtx c x f) :=
  ⟨State.keeps_mapCtx s c x f h, fun e => by
    unfold State.mapCtx; rw [State.core_mapCore]; split
    · exact ⟨rfl, rfl, rfl, rfl, rfl⟩
    · exact .refl _, fun _ h => h⟩
theorem State.delivered_mapDie (s : State) (d : DieId) (f : Die → Die) : s.Delivered (s.mapDie d f) := .of_cores (by simp) (by simp)
theorem State.delivered_wakeCtx (s : State) (c : CoreId) (x : CtxId) : s.Delivered (s.wakeCtx c x) := by
  unfold State.wakeCtx
  dsimp only
  split
  · split
    · exact State.delivered_mapCtx fun _ => ⟨_, _, _, _, rfl⟩
    · exact .refl s
  · exact .refl s
theorem State.delivered_wake (s : State) (c : CoreId) : s.Delivered (s.wake c) := .foldl _ (fun t x => t.delivered_wakeCtx c x) _ _
theorem State.delivered_raisePtsAll (s : State) (c : CoreId) (x : CtxId) : s.Delivered (s.raisePtsAll c x) := State.delivered_mapCtx fun _ => ⟨_, _, _, _, rfl⟩
theorem State.delivered_spadWrite (s : State) (c : CoreId) (a : Nat) (b : List Byte) : s.Delivered (s.spadWrite c a b) :=
  (State.delivered_mapCore (s := s) (f := (·.noteWrite a b.length)) rfl (Core.enginesAs_noteWrite ..)).trans
    (.of_cores rfl fun _ h => (List.mem_filter.mp h).1)
theorem State.delivered_memWrite (s : State) (pa : Nat) (b : List Byte) : s.Delivered (s.memWrite pa b) := by
  unfold State.memWrite
  split
  · exact s.delivered_spadWrite _ _ _
  · exact .of_cores rfl fun _ h => (List.mem_filter.mp h).1
theorem State.delivered_writeBy (s : State) (kept host : Bool) (pa : Nat) (b : List Byte) : s.Delivered (s.writeBy kept host pa b) := by
  unfold State.writeBy
  split
  · exact .refl s
  · split
    · exact (State.Delivered.foldl _ (fun t (_ : Nat) => t.delivered_mapDie _ _) _ _).trans (State.delivered_memWrite _ _ _)
    · exact s.delivered_memWrite _ _
theorem State.delivered_noteOn (s : State) (w : Writer) (c : CoreId) (pa n : Nat) : s.Delivered (s.noteOn w c pa n) :=
  State.delivered_mapCore rfl ⟨rfl, rfl, rfl, rfl, rfl⟩
theorem State.delivered_spadWriteOn (s : State) (w : Writer) (c : CoreId) (a : Nat) (b : List Byte) : s.Delivered (s.spadWriteOn w c a b) :=
  (s.delivered_noteOn _ _ _ _).trans (State.delivered_spadWrite _ _ _ _)
theorem State.delivered_putSaved (s : State) (g : SavedGroup) (own : Option Eng) (a : Nat) (b : List Byte) : s.Delivered (s.putSaved g own a b) :=
  (s.delivered_mapDie _ _).trans (State.delivered_writeBy _ _ _ _ _)
theorem State.delivered_deliver (s : State) (c : CoreId) (l : Option Nat) (a : Nat) (b : List Byte) : s.Delivered (s.deliver c l a b) := by
  unfold State.deliver
  split
  · exact s.delivered_putSaved _ _ _ _
  · exact s.delivered_spadWrite _ _ _
theorem State.delivered_deliverColl (s : State) (c : CoreId) (l : Option Nat) (bars : List Nat) (sb : Option (Nat × Nat)) (a : Nat) (b : List Byte) :
    s.Delivered (s.deliverColl c l bars sb a b) := by
  unfold State.deliverColl
  split
  · exact s.delivered_putSaved _ _ _ _
  · exact s.delivered_spadWriteOn _ _ _ _
theorem State.delivered_updateBarrier (s : State) (c : CoreId) (l : Option Nat) (a : Nat) (k : UpdKind) (n : Nat) : s.Delivered (s.updateBarrier c l a k n) := by
  unfold State.updateBarrier; dsimp only
  refine State.Delivered.trans ?_ (State.delivered_wake _ c)
  split
  · exact (s.delivered_deliver _ _ _ _).trans (State.delivered_mapCore rfl ⟨rfl, rfl, rfl, rfl, rfl⟩)
  · exact s.delivered_deliver _ _ _ _
theorem State.delivered_barUpdate (s : State) (c : CoreId) (q : Command) (f : Nat) (k : UpdKind) (n : Nat) : s.Delivered (s.barUpdate c q f k n) := by
  unfold State.barUpdate
  split
  · exact s.delivered_updateBarrier _ _ _ _ _
  · exact .refl s
/-- A core whose commands of one engine have the notes of another queue's commands, place by place (R251). -/
def Core.notedAs (k : Core) (l : List Command) (e : Eng) : Core :=
  { k with copyq := (k.copyq.zip l).map fun y => if y.1.eng = e then { y.1 with dirty := y.2.dirty } else y.1 }
theorem Core.enginesAs_notedAs {k : Core} {l : List Command} (h : k.copyq.length ≤ l.length) (e : Eng) : k.EnginesAs (k.notedAs l e) := by
  have unnoted : (Command.unnoted ∘ fun y : Command × Command => if y.1.eng = e then { y.1 with dirty := y.2.dirty } else y.1) = Command.unnoted ∘ Prod.fst := by
    funext y; dsimp only [Function.comp]; split <;> rfl
  refine ⟨rfl, rfl, rfl, ?_, rfl⟩
  rw [Core.notedAs, List.map_map, unnoted, ← List.map_map, List.map_fst_zip h]
/-- What a command takes back of the notes of its own writes leaves every engine as it was before them (R251). -/
theorem State.delivered_unseen {s t : State} (h : s.Delivered t) (c : CoreId) (e : Eng) : s.Delivered (t.unseen s c e) :=
  h.trans ((State.delivered_mapCore (f := fun k => k.notedAs (s.core c).copyq e) rfl (Core.enginesAs_notedAs (Nat.le_of_eq (Core.enginesAs_length (h.engines c))) e)).trans
    (.of_cores rfl fun _ h => h))
theorem State.delivered_cmdPut (s : State) (c : CoreId) (q : Command) (a : Nat) (b : List Byte) : s.Delivered (s.cmdPut c q a b) :=
  State.delivered_unseen (s.delivered_spadWriteOn _ _ _ _) _ _

/-! ### Scoreboard bits (R316 to R320) -/

theorem State.delivered_fireArm (s : State) (d : DieId) (a : Arm) : s.Delivered (s.fireArm d a) := by
  unfold State.fireArm; dsimp only
  refine State.Delivered.trans ?_ (State.delivered_updateBarrier _ _ _ _ _ _)
  refine State.Delivered.trans ?_ (State.delivered_mapCore rfl ⟨rfl, rfl, rfl, rfl, rfl⟩)
  exact ((s.delivered_mapDie _ _).trans (State.delivered_raisePtsAll _ _ _)).trans (State.delivered_mapCore rfl ⟨rfl, rfl, rfl, rfl, rfl⟩)
theorem State.delivered_testArm (s : State) (d : DieId) (a : Arm) : s.Delivered (s.testArm d a) := by
  unfold State.testArm
  split
  · exact .refl s
  · split
    · exact s.delivered_mapDie _ _
    · exact s.delivered_fireArm _ _
theorem State.delivered_setBoardRange (s : State) (d : DieId) (j first count : Nat) (clear : Bool) : s.Delivered (s.setBoardRange d j first count clear) :=
  (s.delivered_mapDie _ _).trans (.foldl _ (fun t a => t.delivered_testArm d a) _ _)

end Sys2Proof.Machine
end

section
/-!
PROOFS. The steps of the engines (R6, R175, R178, R235, R246, R250, R254, R255, R258, R260, R382). O41 is not settled here: it is shown to hold exactly when
the opaque `Config.helperRun` has a property (`engineSteps_iff_fullRows`) that some functions of its type have and others have not (`fullRows_fullRuns`,
`not_fullRows_emptyRuns`).
-/
namespace Sys2Proof.Machine
open Sys2Proof.Claims

/-! ### Bytes read where nothing unordered stands (R228) -/

theorem leBytes_leNat (b : List Byte) : leBytes b.length (leNat b) = b := by
  induction b with
  | nil => rfl
  | cons x t ih =>
    have hx := x.isLt
    have low : BitVec.ofNat 8 (x.toNat + 256 * leNat t) = x := BitVec.eq_of_toNat_eq (by rw [BitVec.toNat_ofNat]; omega)
    have high : (x.toNat + 256 * leNat t) / 256 = leNat t := by omega
    simp [leNat, leBytes, low, high, ih]
theorem Memory.length_bytes (m : List Host.Cell) (a n : Nat) : (Memory.bytes m a n).length = n := by
  induction n generalizing a with
  | zero => rfl
  | succ n ih => simp [Memory.bytes, ih]
theorem Memory.getD_bytes (m : List Host.Cell) (a : Nat) {n i : Nat} (h : i < n) (x : Byte) : (Memory.bytes m a n).getD i x = Memory.get m (a + i) := by
  induction n generalizing a i with
  | zero => omega
  | succ n ih =>
    cases i with
    | zero => rfl
    | succ i => rw [Memory.bytes, List.getD_cons_succ, ih (a + 1) (by omega), Nat.add_right_comm, Nat.add_assoc]
theorem Memory.leBytes_read (m : List Host.Cell) (a n : Nat) : leBytes n (Memory.read m a n) = Memory.bytes m a n := by
  have := leBytes_leNat (Memory.bytes m a n)
  rwa [Memory.length_bytes] at this
/-- What a command reads of its scratchpad where nothing unordered and no poison stands is what memory holds (R195, R228). -/
theorem State.cmdFetch_current {s : State} {c : CoreId} {q : Command} {a n : Nat} (h : CurrentFor s q c a n) (sram : Bool) :
    s.cmdFetch c q false sram a n = .ok (Memory.bytes s.mem (spadBase c + a) n, s) := by
  obtain ⟨still, ordered, clean⟩ := h
  have unpoisoned : (s.poison.any fun u => overlaps u 8 (spadBase c + a) n) = false := by
    simpa using clean
  have poisoned : s.poisoned (engPath q.eng) c a n = [] := by
    unfold State.poisoned
    split
    · rfl
    · rw [List.filter_eq_nil_iff.mpr fun u hu => by simp [clean u hu]]; rfl
  have now : s.spadNow (engPath q.eng) c a n = Memory.read s.mem (spadBase c + a) n := by
    cases q.eng <;> simp [engPath, State.spadNow, State.spadRead, still]
  have past : s.spadReadPast q.behind (engPath q.eng) c a n = Memory.read s.mem (spadBase c + a) n := by
    rw [State.spadReadPast, poisoned, ordered, now]; rfl
  simp [State.cmdFetch, unpoisoned, past, Memory.leBytes_read]

/-! ### Contexts that a change of a core leaves -/

theorem State.ctx_mapCore_of_ctxs {s : State} {c : CoreId} {f : Core → Core} (h : (f (s.core c)).ctxs = (s.core c).ctxs) (e : CoreId) (x : CtxId) :
    (s.mapCore c f).ctx e x = s.ctx e x := by
  unfold State.ctx
  rw [State.core_mapCore]; split
  · next he => subst he; simp [Core.ctx, h]
  · rfl
theorem State.ctx_spadWrite (s : State) (c : CoreId) (a : Nat) (b : List Byte) (e : CoreId) (x : CtxId) : (s.spadWrite c a b).ctx e x = s.ctx e x :=
  State.ctx_mapCore_of_ctxs (s := s) (f := (·.noteWrite a b.length)) rfl e x
theorem State.ctx_cmdPut (s : State) (c : CoreId) (q : Command) (a : Nat) (b : List Byte) (e : CoreId) (x : CtxId) : (s.cmdPut c q a b).ctx e x = s.ctx e x :=
  calc (s.cmdPut c q a b).ctx e x = (s.spadWriteOn _ c a b).ctx e x := State.ctx_mapCore_of_ctxs (f := fun k => k.notedAs (s.core c).copyq q.eng) rfl e x
    _ = (s.noteOn _ c (spadBase c + a) b.length).ctx e x := State.ctx_spadWrite ..
    _ = s.ctx e x := State.ctx_mapCore_of_ctxs rfl e x

/-! ### Sectors of a copy (R246) -/

/-- One more sector of a command that is not its last one, with no barrier to tell: it is counted (R246). -/
theorem State.sectorDone_more {s : State} {c : CoreId} {tag : BitVec 32} {q : Command} (h : (s.core c).command tag = some q)
    (more : q.sectors + 1 ≠ (templateOf q.set).total q.help q.n) (mute : bit (setWord q.set 6) 63 = false) :
    s.sectorDone c tag = s.mapCore c fun k => (k.mapCommand tag fun y => { y with sectors := y.sectors + 1, decs := max y.decs (q.sectors + 1) }).count 12 1 := by
  simp [State.sectorDone, h, more, State.barUpdate, mute]
/-- A sector of a raw copy within the scratchpad: the bytes of its source are put at its destination (R246). -/
theorem State.copySector_raw {s : State} {c : CoreId} {q : Command} {r lo len : Nat} (help : q.help = false) (mode : (templateOf q.set).mode = 0)
    (ssp : (templateOf q.set).ssp = false) (dsp : (templateOf q.set).dsp = false) (hr : r = q.sectors / ((q.n + 31) / 32))
    (hlo : lo = 32 * (q.sectors % ((q.n + 31) / 32))) (hlen : len = min 32 (q.n - lo)) (cur : CurrentFor s q c (q.src.toNat + r * (templateOf q.set).sstr + lo) len)
    (noAck : (s.core c).awaitsAck q.tag = false) :
    s.copySector c q = .ok ((s.cmdPut c q (q.dst.toNat + r * (templateOf q.set).dstr + lo)
      (Memory.bytes s.mem (spadBase c + (q.src.toNat + r * (templateOf q.set).sstr + lo)) len)).sectorDone c q.tag) := by
  have row : (templateOf q.set).dstRow q.help q.n = q.n := by simp [Template.dstRow, help, mode]
  have per : (templateOf q.set).rowSectors q.help q.n = (q.n + 31) / 32 := by rw [Template.rowSectors, row]
  have slice : s.rowSlice c q r lo len = .ok (Memory.bytes s.mem (spadBase c + (q.src.toNat + r * (templateOf q.set).sstr + lo)) len, [], s) := by
    simp only [State.rowSlice, help, mode, ssp, State.cmdFetch_current cur]; rfl
  have ack := ((s.delivered_cmdPut c q (q.dst.toNat + r * (templateOf q.set).dstr + lo)
    (Memory.bytes s.mem (spadBase c + (q.src.toNat + r * (templateOf q.set).sstr + lo)) len)).engines c).awaitsAck q.tag
  rw [noAck] at ack
  simp only [State.copySector, row, per, ← hr, ← hlo, ← hlen, slice, dsp, State.cmdStore]
  simp [bind, Except.bind, State.spillBlocks, ack]

theorem State.orStall_near (s u : State) (c : CoreId) (x : CtxId) : s.orStall u false c x = u := by simp [State.orStall]
theorem exec_copySectorPerformed_ok {s u : State} {c : CoreId} {tag : BitVec 32} {q : Command} (w : Works s c tag q) (copy : q.eng = .copy)
    (total : 0 < (templateOf q.set).total q.help q.n) (ready : q.rowReady = true) (dsp : (templateOf q.set).dsp = false) (h : s.copySector c q = .ok u) :
    exec (.copySectorPerformed c tag) s = .next u := by
  show execCopySectorPerformed c tag s = _
  simp [execCopySectorPerformed, w.here, w.going, w.running, w.noAck, copy, Nat.ne_of_gt total, ready, h, dsp, State.orStall_near]
theorem exec_copySectorPerformed_code {s : State} {c : CoreId} {tag : BitVec 32} {q : Command} {code : Nat} (w : Works s c tag q) (copy : q.eng = .copy)
    (total : 0 < (templateOf q.set).total q.help q.n) (ready : q.rowReady = true) (h : s.copySector c q = .error (.code code)) :
    exec (.copySectorPerformed c tag) s = .next (s.failCopy c q code) := by
  show execCopySectorPerformed c tag s = _
  simp [execCopySectorPerformed, w.here, w.going, w.running, w.noAck, copy, Nat.ne_of_gt total, ready, h]
/-- A raw copy within the scratchpad copies the bytes of its sector and no others, and counts it (R246). -/
theorem exec_copySectorPerformed_raw {s : State} {c : CoreId} {tag : BitVec 32} {q : Command} {r lo len : Nat} (w : Works s c tag q) (copy : q.eng = .copy)
    (help : q.help = false) (mode : (templateOf q.set).mode = 0) (ssp : (templateOf q.set).ssp = false) (dsp : (templateOf q.set).dsp = false)
    (mute : bit (setWord q.set 6) 63 = false) (more : q.sectors + 1 < (templateOf q.set).nr * ((q.n + 31) / 32))
    (hr : r = q.sectors / ((q.n + 31) / 32)) (hlo : lo = 32 * (q.sectors % ((q.n + 31) / 32))) (hlen : len = min 32 (q.n - lo))
    (cur : CurrentFor s q c (q.src.toNat + r * (templateOf q.set).sstr + lo) len) :
    ∃ t, exec (.copySectorPerformed c tag) s = .next t ∧
      t.mem = Memory.setBytes s.mem (spadBase c + (q.dst.toNat + r * (templateOf q.set).dstr + lo))
        (Memory.bytes s.mem (spadBase c + (q.src.toNat + r * (templateOf q.set).sstr + lo)) len) ∧
      ((t.core c).command tag).map (·.sectors) = some (q.sectors + 1) ∧ ∀ e x, t.ctx e x = s.ctx e x := by
  have htag := Core.command_tag w.here
  have total : (templateOf q.set).total q.help q.n = (templateOf q.set).nr * ((q.n + 31) / 32) := by
    simp [Template.total, Template.rowSectors, Template.dstRow, help, mode]
  have sector := State.copySector_raw help mode ssp dsp hr hlo hlen cur (by rw [htag]; exact w.noAck)
  obtain ⟨y, hy⟩ := ((s.delivered_cmdPut c q (q.dst.toNat + r * (templateOf q.set).dstr + lo)
    (Memory.bytes s.mem (spadBase c + (q.src.toNat + r * (templateOf q.set).sstr + lo)) len)).engines c).command_some w.here
  rw [htag, State.sectorDone_more hy (by show q.sectors + 1 ≠ (templateOf q.set).total q.help q.n; omega) mute] at sector
  refine ⟨_, exec_copySectorPerformed_ok w copy (by omega) (by simp [Command.rowReady, help]) dsp sector, rfl, ?counted, fun e x => ?contexts⟩
  case counted =>
    rw [State.core_mapCore_self]
    show ((Core.mapCommand _ tag _).command tag).map _ = _
    rw [Core.command_mapCommand, hy]
    · rfl
    · exact fun _ => rfl
  case contexts => rw [State.ctx_mapCore_of_ctxs rfl, State.ctx_cmdPut]

/-! ### Commands that end with an error (R250, R255) -/

theorem Core.setErr_eng0 (k : Core) (code : Nat) : (k.setErr .copy code).eng0.active[15] = BitVec.ofNat 64 (code * 2 ^ 40) := by
  simp [Core.setErr, Core.setEng, EngineRegs.setStat]
theorem Core.command_setErr (k : Core) (e : Eng) (code : Nat) (tag : Word32) : (k.setErr e code).command tag = k.command tag := by cases e <;> rfl
theorem Core.setErr_ctxs (k : Core) (e : Eng) (code : Nat) : (k.setErr e code).ctxs = k.ctxs := by cases e <;> rfl
/-- A core without the commands of a tag, and without the writes of theirs that await another package (R235). -/
def Core.forget (k : Core) (tag : Word32) : Core := { k.dropCommand tag with sent := k.sent.filter fun w => w.cmd.map Prod.fst != some tag }
/-- The state in which a command has left the queue, before contexts that it blocked are woken. -/
def State.forget (s : State) (c : CoreId) (tag : Word32) : State :=
  { s.mapCore c fun k => k.forget tag with watch := s.watch.filter fun w => !(w.core == c && w.tag == tag) }
theorem State.dropCommand_eq (s : State) (c : CoreId) (tag : Word32) : s.dropCommand c tag = (s.forget c tag).wake c := rfl
theorem State.core_forget (s : State) (c : CoreId) (tag : Word32) : (s.forget c tag).core c = (s.core c).forget tag :=
  (State.core_of_cores (s := s.mapCore c (·.forget tag)) rfl c).trans (State.core_mapCore_self ..)
/-- A command that leaves the queue is not in it, whatever is woken (R235). -/
theorem State.command_dropCommand (s : State) (c : CoreId) (tag : Word32) : ((s.dropCommand c tag).core c).command tag = none := by
  rw [State.dropCommand_eq]
  refine ((State.delivered_wake _ c).engines c).command_none ?_
  rw [State.core_forget]
  exact Core.command_dropCommand _ _
theorem State.keeps_dropCommand (s : State) (c : CoreId) (tag : Word32) : s.Keeps (s.dropCommand c tag) :=
  (State.Keeps.trans (s.keeps_mapCore c (·.forget tag) fun _ => rfl) (.of_cores rfl)).trans (State.keeps_wake (s.forget c tag) c)
/-- A copy or helper command that fails leaves the queue, with its code in STAT.err (R243, R250). -/
theorem State.failCopy_ends (s : State) (c : CoreId) (q : Command) (code : Nat) :
    ((s.failCopy c q code).core c).command q.tag = none ∧ ((s.failCopy c q code).core c).eng0.active[15] = BitVec.ofNat 64 (code * 2 ^ 40) := by
  unfold State.failCopy
  have told := (State.delivered_barUpdate (((s.openCopy c q q.sectors).dropCommand c q.tag).mapCore c fun k => k.setErr .copy code) c q (setWord q.set 6) .error
    ((templateOf q.set).total q.help q.n - q.decs)).engines c
  rw [State.core_mapCore_self] at told
  exact ⟨told.command_none (by rw [Core.command_setErr]; exact State.command_dropCommand ..), by rw [told.eng0]; exact Core.setErr_eng0 _ _⟩

/-! ### Rows of the helper (R254, R255) -/

theorem helperFaults_iff (r : Config.HelperRun) :
    helperFaults r = true ↔ r.illegal = true ∨ 2 ^ 22 < r.count ∨ ∃ p ∈ r.accesses, helperAccessOk p.1 p.2 = false := by
  simp [helperFaults, or_assoc]
/-- The registers of a row, one by one (R254). -/
theorem getElem_helperRegs (t : Template) (row n : Nat) (i : Fin 32) : (helperRegs t row n)[i] = if i = 10 then t.arg else if i = 11 then BitVec.ofNat 64 row
    else if i = 12 then BitVec.ofNat 64 n else if i = 13 then BitVec.ofNat 64 t.olen else 0 := by
  simp only [helperRegs, Fin.getElem_fin, Vector.getElem_set, Vector.getElem_replicate, Fin.ext_iff]
  grind
theorem helperRegs_eq {t : Template} {row n : Nat} {regs : Vector Word 32} (h : ∀ i : Fin 32, regs[i] = if i = 10 then t.arg else if i = 11 then BitVec.ofNat 64 row
    else if i = 12 then BitVec.ofNat 64 n else if i = 13 then BitVec.ofNat 64 t.olen else 0) : helperRegs t row n = regs :=
  Vector.ext fun i hi => (getElem_helperRegs t row n ⟨i, hi⟩).trans (h ⟨i, hi⟩).symm
/-- The end of a row: a run that faults ends the command, and any other gives the row its output; HELPER_FAULT does nothing on one that does not (R254, R255). -/
theorem exec_helper {s u : State} {c : CoreId} {tag : BitVec 32} {q : Command} {b : List Byte} (w : Works s c tag q) (help : q.help = true)
    (turn : (s.core c).helperTurn = some tag) (row : q.row < (templateOf q.set).nr) (due : q.row * (templateOf q.set).rowSectors true q.n ≤ q.sectors)
    (h : s.cmdFetch c q (templateOf q.set).ssp false (q.src.toNat + q.row * (templateOf q.set).sstr) q.n = .ok (b, u)) :
    exec (.helperRowEnd c tag) s = .next (if helperFaults (s.helperRun c q b) then u.helperFail c q else u.helperRow c q (s.helperRun c q b)) ∧
      exec (.helperFault c tag) s = .next (if helperFaults (s.helperRun c q b) then u.helperFail c q else s) := by
  constructor
  · show execHelperRowEnd c tag s = _
    simp [execHelperRowEnd, w.here, w.going, w.running, help, turn, Nat.not_le.mpr row, Nat.not_lt.mpr due, h]
  · show execHelperFault c tag s = _
    simp [execHelperFault, w.here, w.going, w.running, help, turn, Nat.not_le.mpr row, Nat.not_lt.mpr due, h]
/-- A row that ends without a fault, and with nothing to tell its barrier, keeps its output, truncated or filled to olen bytes (R254, R255). -/
theorem State.helperRow_quiet {s : State} {c : CoreId} {tag : BitVec 32} {q : Command} {r : Config.HelperRun} (here : (s.core c).command tag = some q)
    (quiet : r.produced = (templateOf q.set).olen ∨ bit (setWord q.set 6) 63 = false) :
    (s.helperRow c q r).mem = s.mem ∧
      ((s.helperRow c q r).core c).command tag = some { q with row := q.row + 1, rowOut := (r.out.take r.produced ++ List.replicate (templateOf q.set).olen 0).take (templateOf q.set).olen } ∧
      ((s.helperRow c q r).core c).eng0.active[15] = (if r.produced = (templateOf q.set).olen then (s.core c).eng0.active[15] else BitVec.ofNat 64 (0x07 * 2 ^ 40)) ∧
      ∀ e x, (s.helperRow c q r).ctx e x = s.ctx e x := by
  have kept (f : Command → Command) (hf : ∀ y, (f y).tag = y.tag) : ((s.core c).mapCommand q.tag f).command tag = some (f q) := by
    rw [Core.command_tag here, Core.command_mapCommand _ _ _ hf, here]; rfl
  unfold State.helperRow; dsimp only
  split
  · refine ⟨rfl, ?_, ?_, fun e x => State.ctx_mapCore_of_ctxs rfl e x⟩ <;> simp only [State.core_mapCore_self]
    · exact kept _ fun _ => rfl
    · rfl
  · next wrong =>
    rw [State.barUpdate, if_neg (by simp [quiet.resolve_left wrong])]
    refine ⟨rfl, ?_, ?_, fun e x => (State.ctx_mapCore_of_ctxs (Core.setErr_ctxs ..) e x).trans (State.ctx_mapCore_of_ctxs rfl e x)⟩ <;>
      simp only [State.core_mapCore_self]
    · rw [Core.command_setErr]; exact kept _ fun _ => rfl
    · exact Core.setErr_eng0 _ _
theorem State.spadHome_mapCore (s : State) (c e : CoreId) (f : Core → Core) (l : Option Nat) : (s.mapCore c f).spadHome e l = s.spadHome e l := by
  simp [State.spadHome, State.savedGroup]
theorem State.cmdLaunch_mapCore {f : Core → Core} (h : ∀ k, (f k).ctxs = k.ctxs) (s : State) (c : CoreId) (q : Command) :
    (s.mapCore c f).cmdLaunch c q = s.cmdLaunch c q := by rw [State.cmdLaunch, State.ctx_mapCore_of_ctxs (h _)]; rfl
/-- A row of a wrong length flags the barrier of its command, in memory (R255, R306). -/
theorem State.helperRow_told_mem {s : State} {c : CoreId} {q : Command} {r : Config.HelperRun} (wrong : r.produced ≠ (templateOf q.set).olen)
    (told : bit (setWord q.set 6) 63 = true) {a : Nat} (ha : a = s.spadHome c (s.cmdLaunch c q) + bits (setWord q.set 6) 0 21) :
    (s.helperRow c q r).mem = Memory.setBytes s.mem a (leBytes 16 ((Barrier.ofNat (Memory.read s.mem a 16)).update .flag 0).toNat) := by
  unfold State.helperRow; dsimp only
  rw [if_neg wrong, State.barUpdate, if_pos told, State.mapCore_mem, State.updateBarrier_mem, State.mapCore_mem, State.spadHome_mapCore,
    State.cmdLaunch_mapCore, ← ha]
  exact fun _ => rfl

/-! ### Ranks of a transpose (R258 to R260, R382) -/

/-- An absent member changes nothing of the package but the count of packets that fail to authenticate (R379, R383). -/
theorem State.answerFails_frame (s : State) (g : GroupCopy) (m : Member) (gone : BitVec 8) :
    (s.answerFails g m gone).cores = s.cores ∧ (s.answerFails g m gone).mem = s.mem ∧
      ((s.answerFails g m gone).pkg.sealfail = s.pkg.sealfail ∨ gone = 0x0C ∧ (s.answerFails g m gone).pkg.sealfail = s.pkg.sealfail + 1) := by
  unfold State.answerFails
  split
  · next h => exact ⟨rfl, rfl, .inr ⟨BitVec.eq_of_toNat_eq h.1, rfl⟩⟩
  · exact ⟨rfl, rfl, .inl rfl⟩
/-- An absent rank is served with its code (R260, R382). -/
theorem exec_xposeRankServed_absent {s : State} {c : CoreId} {tag : BitVec 32} {q : Command} {n : Nat} {gone : BitVec 8} (w : Works s c tag q) (eng : q.eng = .xpose)
    (rank : n < (xparam q.set).p) (unserved : q.served.contains n = false) (map1 : (xparam q.set).map1 = true) (absent : gone ≠ 0) :
    ∃ t, exec (.xposeRankServed (.own c) tag n gone) s = .next t ∧ t.mem = s.mem ∧ (∀ e x, t.ctx e x = s.ctx e x) ∧
      (t.core c).command tag = some { q with served := n :: q.served, err := gone.toNat } ∧
      (t.pkg.sealfail = s.pkg.sealfail ∨ gone = 0x0C ∧ t.pkg.sealfail = s.pkg.sealfail + 1) := by
  obtain ⟨u, served, cores, mem, sealfail⟩ : ∃ u : State, s.serveRank c tag n gone = u.rankAbsent c q n gone.toNat ∧ u.cores = s.cores ∧ u.mem = s.mem ∧
      (u.pkg.sealfail = s.pkg.sealfail ∨ gone = 0x0C ∧ u.pkg.sealfail = s.pkg.sealfail + 1) := by
    have start : s.serveRank c tag n gone =
        (match s.rankMember c (xparam q.set) n with | some (g, w) => s.answerFails g (memberOf w) gone | none => s).rankAbsent c q n gone.toNat := by
      have : (gone != 0) = true := by simpa using absent
      simp only [State.serveRank, w.here, eng, w.going, w.running, w.noAck, Nat.not_le.mpr rank, unserved, map1, this]
      rfl
    rw [start]
    split
    · exact ⟨_, rfl, State.answerFails_frame ..⟩
    · exact ⟨s, rfl, rfl, rfl, .inl rfl⟩
  refine ⟨_, congrArg Host.Outcome.next served, mem, fun e x => ?_, ?_, sealfail⟩
  · exact (State.ctx_mapCore_of_ctxs rfl e x).trans (State.ctx_of_cores cores e x)
  · rw [State.rankAbsent, State.core_mapCore_self, Core.command_tag w.here, Core.command_mapCommand, State.core_of_cores cores, w.here]
    · simp [Core.command_tag w.here]
    · exact fun _ => rfl

theorem State.delivered_putRank {s : State} {c : CoreId} {q : Command} {x : XParam} (near : x.map1 = false ∧ x.osp = false) (rank off : Nat) (b : List Byte) :
    ∃ u, s.putRank c q x rank off b = .ok u ∧ s.Delivered u := by
  unfold State.putRank
  simp only [near]
  cases s.rankCore c.die (s.launchOf c q.ctx) x rank with
  | none => exact ⟨s, rfl, .refl s⟩
  | some k => exact ⟨_, rfl, State.delivered_unseen (s.delivered_deliverColl _ _ _ _ _ _) _ _⟩
/-- Without poison, the elements of a rank whose slabs lie in scratchpads all move (R258). -/
theorem State.moveRank_near {c : CoreId} {q : Command} {x : XParam} (o : XOpen) (rank : Nat) (map1 : x.map1 = false) (isp : x.isp = false) (osp : x.osp = false)
    (l : List (List Nat)) (s : State) (clean : s.poison = []) : ∃ u, s.moveRank c q x o rank l = .ok u ∧ s.Delivered u := by
  induction l generalizing s with
  | nil => exact ⟨s, rfl, .refl s⟩
  | cons g rest ih =>
    obtain ⟨b, read⟩ : ∃ b, s.cmdFetch c q x.isp false (x.ibase + (x.offsets rank g).1) x.z = .ok (b, s) := by
      simp [State.cmdFetch, isp, clean]
    obtain ⟨y, step⟩ : ∃ y, s.moveRank c q x o rank (g :: rest) = s.putRank c q x rank (x.offsets rank g).2 y >>= fun v => v.moveRank c q x o rank rest :=
      ⟨_, by rw [State.moveRank]; dsimp only; rw [read]; rfl⟩
    obtain ⟨v, put, here⟩ := s.delivered_putRank (c := c) (q := q) ⟨map1, osp⟩ rank (x.offsets rank g).2 y
    obtain ⟨u, others, there⟩ := ih v (List.eq_nil_iff_forall_not_mem.mpr fun p hp => by simpa [clean] using here.poison p hp)
    exact ⟨u, by rw [step, put]; exact others, here.trans there⟩
theorem State.delivered_arriveRank {x : XParam} (map1 : x.map1 = false) (s : State) (c : CoreId) (q : Command) (rank : Nat) (fail : Bool) :
    s.Delivered (s.arriveRank c q x rank fail) := by
  unfold State.arriveRank
  simp only [map1]
  split
  · exact .refl s
  · cases s.rankCore c.die (s.launchOf c q.ctx) x rank with
    | none => exact .refl s
    | some k => exact s.delivered_updateBarrier _ _ _ _ _
theorem State.delivered_bitRank {x : XParam} (map1 : x.map1 = false) (s : State) (c : CoreId) (rank : Nat) : s.Delivered (s.bitRank c x rank) := by
  unfold State.bitRank
  simp only [map1]
  split
  · exact .refl s
  · exact s.delivered_setBoardRange _ _ _ _ _
/-- A rank whose writes have all been performed is marked as served, and no register changes (R258). -/
theorem State.rankDone_near {s : State} {c : CoreId} {q r : Command} (map1 : (xparam q.set).map1 = false) (here : (s.core c).command q.tag = some r) (n : Nat) :
    (((s.rankDone c q n).core c).command q.tag).map (·.served) = some (n :: r.served) ∧ s.Keeps (s.rankDone c q n) := by
  have marked : ((s.mapCore c fun y => y.mapCommand q.tag fun z => { z with served := n :: z.served }).core c).command q.tag =
      some { r with served := n :: r.served } := by
    rw [State.core_mapCore_self, Core.command_mapCommand, here]
    · rfl
    · exact fun _ => rfl
  have marks : s.Keeps (s.mapCore c fun y => y.mapCommand q.tag fun z => { z with served := n :: z.served }) := State.keeps_mapCore _ _ _ fun _ => rfl
  have told := (State.delivered_arriveRank map1 (s.mapCore c fun y => y.mapCommand q.tag fun z => { z with served := n :: z.served }) c q n false).trans
    (State.delivered_bitRank map1 _ c n)
  obtain ⟨d, hd⟩ := (told.engines c).command_some marked
  exact ⟨(congrArg (Option.map (·.served)) hd).trans rfl, marks.trans told.ctxs⟩
/-- A rank whose slabs lie in scratchpads is served: its elements move, then its arrival and its bit (R258). -/
theorem exec_xposeRankServed_near {s : State} {c : CoreId} {tag : BitVec 32} {q : Command} {n : Nat} {x : XParam} (w : Works s c tag q) (hx : x = xparam q.set)
    (eng : q.eng = .xpose) (rank : n < x.p) (unserved : q.served.contains n = false) (map1 : x.map1 = false) (isp : x.isp = false) (osp : x.osp = false)
    (clean : s.poison = []) (gone : BitVec 8) :
    ∃ u t, s.moveRank c q x (s.xOpen c q x) n (x.indices n) = .ok u ∧ exec (.xposeRankServed (.own c) tag n gone) s = .next t ∧
      t = ((u.mapCore c fun k => k.mapCommand tag fun y => { y with served := n :: y.served }).arriveRank c q x n false).bitRank c x n ∧
      ((t.core c).command tag).map (·.served) = some (n :: q.served) ∧ s.Keeps t := by
  have htag := Core.command_tag w.here
  obtain ⟨u, moved, here⟩ := State.moveRank_near (c := c) (q := q) (s.xOpen c q x) n map1 isp osp (x.indices n) s clean
  have noAck : (u.core c).awaitsAck tag = false := ((here.engines c).awaitsAck tag).trans w.noAck
  have served : s.serveRank c tag n gone = u.rankDone c q n := by
    subst hx
    simp only [State.serveRank, w.here, eng, w.going, w.running, w.noAck, Nat.not_le.mpr rank, unserved, map1, moved, noAck, osp]
    exact State.orStall_near s (u.rankDone c q n) c q.ctx
  obtain ⟨d, hd⟩ := (here.engines c).command_some w.here
  obtain ⟨marked, kept⟩ := State.rankDone_near (hx ▸ map1) (htag.symm ▸ hd) n
  rw [htag] at marked
  exact ⟨u, _, moved, congrArg Host.Outcome.next served, by rw [State.rankDone, htag, hx], marked, here.ctxs.trans kept⟩

/-- What a transpose that ends leaves open of its outputs is delivered as any value (R251). -/
theorem State.delivered_openXpose (s : State) (c : CoreId) (q : Command) : s.Delivered (s.openXpose c q) := by
  unfold State.openXpose; dsimp only
  split
  · exact .refl s
  · refine .foldl _ (fun t r => .foldl _ (fun t g => ?_) _ _) _ _
    split
    · exact .refl t
    · refine .foldl _ (fun t p => ?_) _ _
      split
      · exact .refl t
      · exact .refl t
      · exact t.delivered_writeBy _ _ _ _
/-- A transpose whose ranks are all served leaves the queue (R258, R260). -/
theorem exec_xposeSendComplete_served {s : State} {c : CoreId} {tag : BitVec 32} {q : Command} (w : Works s c tag q) (eng : q.eng = .xpose)
    (served : ∀ n < (xparam q.set).p, q.served.contains n = true) :
    ∃ t, exec (.xposeSendComplete c tag) s = .next t ∧ (t.core c).command tag = none ∧ s.Keeps t := by
  have all : (List.range (xparam q.set).p).all (fun r => q.served.contains r) = true := List.all_eq_true.mpr fun n hn => served n (List.mem_range.mp hn)
  obtain ⟨v, hv, gone, kept⟩ : ∃ v, v = (if q.err = 0 then (s.openXpose c q).dropCommand c tag
      else ((s.openXpose c q).dropCommand c tag).mapCore c fun y => y.setErr .xpose q.err) ∧ (v.core c).command tag = none ∧ s.Keeps v := by
    have left := (s.openXpose c q).command_dropCommand c tag
    have kept := (s.delivered_openXpose c q).ctxs.trans (State.keeps_dropCommand _ c tag)
    refine ⟨_, rfl, ?_⟩
    split
    · exact ⟨left, kept⟩
    · exact ⟨by rw [State.core_mapCore_self, Core.command_setErr]; exact left, kept.trans (State.keeps_mapCore _ c _ fun _ => Core.setErr_ctxs ..)⟩
  have told := v.delivered_barUpdate c q (xparam q.set).sbar (if q.err = 0 then .arrive else .arriveErr) 1
  refine ⟨_, ?_, (told.engines c).command_none gone, kept.trans told.ctxs⟩
  show execXposeSendComplete c tag s = _
  simp only [execXposeSendComplete, w.here, eng, w.going, w.running, all, hv]
  rfl

/-! ### The transform unit (R175, R178) -/

theorem State.delivered_xftWrite (s : State) (c : CoreId) (a : Nat) (b : List Byte) : s.Delivered (s.xftWrite c a b) :=
  have wrote := s.delivered_spadWrite c a b
  wrote.trans (State.delivered_mapCore rfl ⟨rfl, rfl, rfl, rfl, (wrote.engines c).xft.symm⟩)
theorem State.delivered_putTransform (s : State) (c : CoreId) (p : Vector Word 16) (b : Nat) (xs : List Cx) : s.Delivered (s.putTransform c p b xs) :=
  .foldl _ (fun t _ => (t.delivered_xftWrite c _ _).trans (State.delivered_xftWrite _ c _ _)) _ _
theorem State.delivered_openOutputs (s : State) (c : CoreId) (p : Vector Word 16) (x : XftOp) : s.Delivered (s.openOutputs c p x) := by
  refine .foldl _ (fun t b => ?_) _ _
  split
  · exact t.delivered_putTransform c p b _
  · exact .refl t
theorem State.delivered_noteOutputs (s : State) (c : CoreId) (x : CtxId) (p : Vector Word 16) : s.Delivered (s.noteOutputs c x p) :=
  .foldl _ (fun _ _ => State.delivered_mapCore rfl ⟨rfl, rfl, rfl, rfl, rfl⟩) _ _

theorem State.ctx_putTransform (s : State) (c : CoreId) (p : Vector Word 16) (b : Nat) (xs : List Cx) (e : CoreId) (y : CtxId) :
    (s.putTransform c p b xs).ctx e y = s.ctx e y := by
  have wrote (t : State) (a : Nat) (v : List Byte) : (t.xftWrite c a v).ctx e y = t.ctx e y :=
    (State.ctx_mapCore_of_ctxs rfl e y).trans (State.ctx_spadWrite ..)
  exact foldl_keeps (fun t : State => t.ctx e y) _ (fun t _ => (wrote _ _ _).trans (wrote _ _ _)) _ _
/-- A core that counts one more transform of its batch, in the unit, in word 15 of the active set and in its counter of butterflies (R165, R175, R327). -/
def Core.transformDone (k : Core) (p : Vector Word 16) (x : XftOp) : Core :=
  { k.count 11 ((planRadices p).map fun r => planN p / r).sum with xft := some { x with done := x.done + 1 }, eng1 := k.eng1.setStat (statWord true (x.done + 1)) }
theorem Core.transformDone_swap (k : Core) (p : Vector Word 16) (x : XftOp) : (k.transformDone p x).eng1.swap = k.eng1.swap := rfl
/-- The state in which the outputs of the next transform are written. -/
def State.transformWritten (s : State) (c : CoreId) (x : XftOp) : State :=
  (s.reportInput c (s.core c).eng1.active x.done).putTransform c (s.core c).eng1.active x.done (s.runTransform c (s.core c).eng1.active x.behind x.done).toList
theorem State.transformStep_open {s : State} {c : CoreId} {x : XftOp} (h : (s.core c).xft = some x) (more : x.done < planB (s.core c).eng1.active) :
    s.transformStep c = (s.transformWritten c x).mapCore c fun k => k.transformDone (s.core c).eng1.active x := by
  simp only [State.transformStep, h, if_neg (Nat.not_le.mpr more)]; rfl
theorem State.delivered_transformWritten (s : State) (c : CoreId) (x : XftOp) : s.Delivered (s.transformWritten c x) :=
  (State.Delivered.of_cores (s := s) (t := s.reportInput c (s.core c).eng1.active x.done) rfl fun _ hu => hu).trans (State.delivered_putTransform ..)
theorem State.ctx_transformWritten (s : State) (c : CoreId) (x : XftOp) (e : CoreId) (y : CtxId) : (s.transformWritten c x).ctx e y = s.ctx e y :=
  State.ctx_putTransform ..
/-- One transform of the batch is counted, and no context changes (R175). -/
theorem exec_xftTransformDone_open {s : State} {c : CoreId} {x : XftOp} (h : (s.core c).xft = some x) (running : (s.core c).halted = false)
    (more : x.done < planB (s.core c).eng1.active) : ∃ t y, exec (.xftTransformDone c) s = .next t ∧ (t.core c).xft = some y ∧ y.done = x.done + 1 ∧
      (t.core c).eng1.active[15] = BitVec.ofNat 64 (2 ^ 63 + (x.done + 1) % 2 ^ 17) ∧ ∀ e y, t.ctx e y = s.ctx e y := by
  refine ⟨(s.transformWritten c x).mapCore c fun k => k.transformDone (s.core c).eng1.active x, { x with done := x.done + 1 }, ?_, ?_, rfl, ?_,
    fun e y => (State.ctx_mapCore_of_ctxs (f := fun k => k.transformDone (s.core c).eng1.active x) rfl e y).trans (State.ctx_transformWritten ..)⟩
  · show execXftTransformDone c s = _
    rw [execXftTransformDone, running, ← State.transformStep_open h more]; rfl
  · rw [State.core_mapCore_self]; rfl
  · simp only [State.core_mapCore_self]
    simp [Core.transformDone, EngineRegs.setStat, statWord]
/-- The transforms still to do leave the contexts and the pending swap. -/
theorem State.transformSteps_keeps (s : State) (c : CoreId) (n : Nat) :
    s.Keeps (s.transformSteps c n) ∧ ((s.transformSteps c n).core c).eng1.swap = (s.core c).eng1.swap := by
  induction n generalizing s with
  | zero => exact ⟨.refl s, rfl⟩
  | succ n ih =>
    have one : s.Keeps (s.transformStep c) ∧ ((s.transformStep c).core c).eng1.swap = (s.core c).eng1.swap := by
      cases h : (s.core c).xft with
      | none => rw [State.transformStep, h]; exact ⟨.refl s, rfl⟩
      | some x =>
        by_cases more : x.done < planB (s.core c).eng1.active
        · have same := s.delivered_transformWritten c x
          rw [State.transformStep_open h more, State.core_mapCore_self]
          exact ⟨same.ctxs.trans (State.keeps_mapCore _ c (fun k => k.transformDone (s.core c).eng1.active x) fun _ => rfl),
            (Core.transformDone_swap ..).trans (congrArg EngineRegs.swap (same.engines c).eng1)⟩
        · rw [State.transformStep, h]
          simp only [if_pos (Nat.not_lt.mp more)]
          exact ⟨.refl s, trivial⟩
    exact ⟨one.1.trans (ih _).1, (ih _).2.trans one.2⟩
/-- A core whose unit is free, with the count of its transforms in word 15 of the active set (R165, R178). -/
def Core.transformsOver (k : Core) (n : Nat) : Core := { k with xft := none, eng1 := k.eng1.setStat (statWord false n) }
/-- The state in which the operation has written and noted all its outputs. -/
def State.transformsWritten (s : State) (c : CoreId) (x : XftOp) : State :=
  let t := s.transformSteps c (planB (s.core c).eng1.active - x.done)
  (t.openOutputs c (s.core c).eng1.active ((t.core c).xft.getD x)).noteOutputs c x.ctx (s.core c).eng1.active
theorem State.transformsWritten_keeps (s : State) (c : CoreId) (x : XftOp) :
    s.Keeps (s.transformsWritten c x) ∧ ((s.transformsWritten c x).core c).eng1.swap = (s.core c).eng1.swap := by
  obtain ⟨kept, swap⟩ := s.transformSteps_keeps c (planB (s.core c).eng1.active - x.done)
  have wrote := (State.delivered_openOutputs (s.transformSteps c (planB (s.core c).eng1.active - x.done)) c (s.core c).eng1.active
    (((s.transformSteps c (planB (s.core c).eng1.active - x.done)).core c).xft.getD x)).trans (State.delivered_noteOutputs _ c x.ctx (s.core c).eng1.active)
  exact ⟨kept.trans wrote.ctxs, (congrArg EngineRegs.swap (wrote.engines c).eng1).trans swap⟩
/-- The state in which the unit is free, and its barrier has the arrival (R178). -/
def State.transformsOver (s : State) (c : CoreId) (x : XftOp) : State :=
  let p := (s.core c).eng1.active
  let t := (s.transformsWritten c x).mapCore c fun k => k.transformsOver (planB p)
  if bit (setWord p 8) 63 then t.updateBarrier c (t.ctx c x.ctx).launch (bits (setWord p 8) 0 21) .arrive 1 else t
theorem State.delivered_transformsOver (s : State) (c : CoreId) (x : XftOp) :
    ((s.transformsWritten c x).mapCore c fun k => k.transformsOver (planB (s.core c).eng1.active)).Delivered (s.transformsOver c x) := by
  unfold State.transformsOver; dsimp only
  split
  · exact State.delivered_updateBarrier ..
  · exact .refl _
/-- The operation that ends with no swap to come frees the unit, with its count in word 15 of the active set (R165, R178). -/
theorem exec_xftComplete_free {s : State} {c : CoreId} {x : XftOp} (h : (s.core c).xft = some x) (running : (s.core c).halted = false)
    (alone : (s.core c).eng1.swap = none) : ∃ t, exec (.xftComplete c) s = .next t ∧ (t.core c).xft = none ∧
      (t.core c).eng1.active[15] = BitVec.ofNat 64 (planB (s.core c).eng1.active % 2 ^ 17) ∧ s.Keeps t := by
  obtain ⟨kept, swap⟩ := s.transformsWritten_keeps c x
  have ended := (s.delivered_transformsOver c x).trans (State.delivered_wake _ c)
  have core := ended.engines c
  rw [State.core_mapCore_self] at core
  have finish : s.finishXft c = (s.transformsOver c x).wake c := by
    have still : ((s.transformsOver c x).core c).eng1.swap = none := by
      rw [((s.delivered_transformsOver c x).engines c).eng1, State.core_mapCore_self]
      exact swap.trans alone
    rw [State.finishXft, h]
    show (match ((s.transformsOver c x).core c).eng1.swap with
      | none => (s.transformsOver c x).wake c
      | some y => ((s.transformsOver c x).mapCore c fun k => k.startXft y k.xftBehind).wake c) = _
    rw [still]
  refine ⟨(s.transformsOver c x).wake c, ?_, core.xft_none rfl, ?_, kept.trans ((State.keeps_mapCore _ c (fun k => k.transformsOver _) fun _ => rfl).trans ended.ctxs)⟩
  · show execXftComplete c s = _
    rw [execXftComplete, running, ← finish]; rfl
  · simp only [core.eng1]
    simp [Core.transformsOver, EngineRegs.setStat, statWord]

/-! ### Frozen cores (R6) -/

theorem exec_copySectorPerformed_halted {s : State} {c : CoreId} (h : (s.core c).halted = true) (tag : BitVec 32) : exec (.copySectorPerformed c tag) s = .next s := by
  show execCopySectorPerformed c tag s = _
  cases e : (s.core c).command tag <;> simp [execCopySectorPerformed, e, h]
theorem exec_helperRowEnd_halted {s : State} {c : CoreId} (h : (s.core c).halted = true) (tag : BitVec 32) : exec (.helperRowEnd c tag) s = .next s := by
  show execHelperRowEnd c tag s = _
  cases e : (s.core c).command tag <;> simp [execHelperRowEnd, e, h]
theorem exec_helperFault_halted {s : State} {c : CoreId} (h : (s.core c).halted = true) (tag : BitVec 32) : exec (.helperFault c tag) s = .next s := by
  show execHelperFault c tag s = _
  cases e : (s.core c).command tag <;> simp [execHelperFault, e, h]
theorem exec_xposeRankServed_halted {s : State} {c : CoreId} (h : (s.core c).halted = true) (tag : BitVec 32) (n : Nat) (gone : BitVec 8) :
    exec (.xposeRankServed (.own c) tag n gone) s = .next s := by
  show Host.Outcome.next (s.serveRank c tag n gone) = _
  cases e : (s.core c).command tag <;> simp [State.serveRank, e, h]
theorem exec_xposeSendComplete_halted {s : State} {c : CoreId} (h : (s.core c).halted = true) (tag : BitVec 32) : exec (.xposeSendComplete c tag) s = .next s := by
  show execXposeSendComplete c tag s = _
  cases e : (s.core c).command tag <;> simp [execXposeSendComplete, e, h]
theorem exec_xftTransformDone_halted {s : State} {c : CoreId} (h : (s.core c).halted = true) : exec (.xftTransformDone c) s = .next s :=
  congrArg Host.Outcome.next (if_pos h)
theorem exec_xftComplete_halted {s : State} {c : CoreId} (h : (s.core c).halted = true) : exec (.xftComplete c) s = .next s :=
  congrArg Host.Outcome.next (if_pos h)

/-! ### What O41 rests on -/

/-- A function of the type of `Config.helperRun`: what runs of helper routines do. -/
abbrev HelperRuns := List Byte → Nat → List Byte → Vector Word 32 → Word32 → Config.HelperRun
/-- Every run of a helper row on a scratchpad source that meets no fault leaves as many bytes as olen. -/
def HelperRuns.FullRows (run : HelperRuns) : Prop :=
  ∀ (body input : List Byte) (entry row : Nat) (v : Vector Word 16), row < (templateOf v).nr → (templateOf v).ssp = false →
    helperFaults (run body entry input (helperRegs (templateOf v) row input.length) 0) = false →
      (run body entry input (helperRegs (templateOf v) row input.length) 0).produced = (templateOf v).olen
/-- The property for the model's runs: what no rule says, and what the model leaves open (assumption 9). -/
def FullRows : Prop := HelperRuns.FullRows Config.helperRun
/-- Runs that leave the olen bytes of their start state. -/
def fullRuns : HelperRuns := fun _ _ _ regs _ => ⟨[], false, 0, [], regs[13].toNat⟩
/-- Runs that leave nothing. -/
def emptyRuns : HelperRuns := fun _ _ _ _ _ => ⟨[], false, 0, [], 0⟩
theorem Template.olen_lt (v : Vector Word 16) : (templateOf v).olen < 2 ^ 64 :=
  have width : (templateOf v).olen < 2 ^ 32 := Nat.mod_lt _ (by decide)
  Nat.lt_of_lt_of_le width (by decide)
/-- The property holds of one function of that type … -/
theorem fullRows_fullRuns : fullRuns.FullRows := by
  intro body input entry row v _ _ _
  have olen : (helperRegs (templateOf v) row input.length)[13] = BitVec.ofNat 64 (templateOf v).olen := getElem_helperRegs (templateOf v) row input.length 13
  simp only [fullRuns, olen, BitVec.toNat_ofNat]
  exact Nat.mod_eq_of_lt (Template.olen_lt v)
/-- … and fails of another, on one row of one byte: the rest of the model does not decide it. -/
theorem not_fullRows_emptyRuns : ¬ emptyRuns.FullRows := fun full =>
  absurd (full [] [] 0 0 ((Vector.replicate 16 0).set 7 (BitVec.ofNat 64 (2 ^ 32))) (by decide) (by decide) rfl) (by decide)
/-- The clauses of O41 hold of every engine, but for a helper row of a wrong length that a barrier is told of. -/
theorem engineSteps_of_fullRows (full : FullRows) : Obligations.EngineSteps := by
  unfold Obligations.EngineSteps
  refine ⟨fun s c tag q tm w htm => ?_, fun s c x h running => ⟨exec_xftTransformDone_open h running, fun alone => ?complete⟩, fun s c tag n gone h => ?halted⟩
  case complete =>
    obtain ⟨t, step, free, count, kept⟩ := exec_xftComplete_free h running alone
    exact ⟨t, step, free, count, fun e y => ⟨(kept.regs e y).1, (kept.regs e y).2.2.1⟩⟩
  case halted =>
    simp only [List.forall_mem_cons, List.not_mem_nil, false_implies, implies_true, and_true]
    exact ⟨exec_copySectorPerformed_halted h tag, exec_helperRowEnd_halted h tag, exec_helperFault_halted h tag, exec_xposeRankServed_halted h tag n gone,
      exec_xposeSendComplete_halted h tag, exec_xftTransformDone_halted h, exec_xftComplete_halted h⟩
  have htag := Core.command_tag w.here
  subst htm
  refine ⟨?raw, ?failed, ?row, ?absent, ?near, ?sent⟩
  case raw =>
    intro r lo len base copy help mode ssp dsp mute canonical _ more hr hlo hlen hbase cur
    obtain ⟨t, step, mem, counted, ctxs⟩ := exec_copySectorPerformed_raw w copy help mode ssp dsp mute more hr hlo hlen cur
    have out : base = spadBase c := hbase
    refine ⟨t, step, ?_, fun i hi => ?_, fun p hp => ?_, counted, ctxs⟩
    · rw [State.memOk, mem]; exact Memory.wf_setBytes _ _ canonical
    · rw [mem, Memory.get_setBytes _ _ canonical, Memory.length_bytes, out, if_pos (by omega), Nat.add_sub_cancel_left, Memory.getD_bytes _ _ hi]
    · rw [mem, Memory.get_setBytes_out canonical (by rw [Memory.length_bytes, ← out]; exact hp)]
  case failed =>
    intro code copy total ready error
    have ends := s.failCopy_ends c q code
    rw [htag] at ends
    exact ⟨_, exec_copySectorPerformed_code w copy total ready error, ends⟩
  case row =>
    intro help turn row b y regs r copy due ssp cur hb hy hregs hr
    have read : s.cmdFetch c q (templateOf q.set).ssp false (q.src.toNat + q.row * (templateOf q.set).sstr) q.n = .ok (b, s) := by
      rw [ssp, State.cmdFetch_current cur, hb]; rfl
    have run : s.helperRun c q b = r := by
      simp only [State.helperRun, hy, helperRegs_eq hregs]; exact hr.symm
    obtain ⟨rowEnd, fault⟩ := exec_helper w help turn row due read
    rw [run] at rowEnd fault
    constructor
    · intro bad
      have faults := (helperFaults_iff r).mpr bad
      have ends := s.failCopy_ends c q errHelperFault
      rw [htag] at ends
      simp only [List.forall_mem_cons, List.not_mem_nil, false_implies, implies_true, and_true]
      exact ⟨⟨_, by rw [rowEnd, if_pos faults]; rfl, ends⟩, ⟨_, by rw [fault, if_pos faults]; rfl, ends⟩⟩
    · rintro ⟨legal, short, inside⟩
      have fine : helperFaults r = false := by
        rw [Bool.eq_false_iff, ne_eq, helperFaults_iff]
        rintro (h | h | ⟨p, hp, h⟩)
        · simp [legal] at h
        · omega
        · simp [inside p hp] at h
      have length : b.length = q.n := by rw [hb]; exact Memory.length_bytes ..
      have produced : r.produced = (templateOf q.set).olen := by
        have := full y.body b y.entry q.row q.set row ssp
        rw [length, helperRegs_eq hregs, ← hr] at this
        exact this fine
      exact ⟨by rw [fault, fine]; rfl, s.helperRow c q r, by rw [rowEnd, fine]; rfl, State.helperRow_quiet w.here (.inl produced)⟩
  case absent => exact fun n gone eng rank unserved map1 absent => exec_xposeRankServed_absent w eng rank unserved map1 absent
  case near =>
    intro n gone x hx eng rank unserved map1 isp osp clean
    obtain ⟨u, t, moved, step, ht, counted, kept⟩ := exec_xposeRankServed_near w hx eng rank unserved map1 isp osp clean gone
    exact ⟨u, t, moved, step, ht, counted, fun e y => ⟨(kept.regs e y).1, (kept.regs e y).2.1, (kept.regs e y).2.2.1⟩⟩
  case sent =>
    intro eng served
    obtain ⟨t, step, gone, kept⟩ := exec_xposeSendComplete_served w eng served
    exact ⟨t, step, gone, fun e y => ⟨(kept.regs e y).1, (kept.regs e y).2.1, (kept.regs e y).2.2.1⟩⟩

/-- A helper command on core 0 whose row is due, with its source behind an enabled barrier at address 0. -/
def tellingCommand (v : Vector Word 16) (row n : Nat) : Command :=
  ⟨0, .copy, true, 0, v.set 6 (BitVec.ofNat 64 (2 ^ 63)), 0, 16, n, row * (templateOf v).rowSectors true n, 0, row, [], [], false, none, 0, [], []⟩
/-- A machine that serves that command alone, with the routine loaded and the input in place. -/
def tellingState (body input : List Byte) (entry row : Nat) (v : Vector Word 16) : State :=
  { (State.reset.mapCore 0 fun k => { k with copyq := [tellingCommand v row input.length] }).mapDie 0 fun d => { d with routines := [⟨(templateOf v).routine, entry, body⟩] } with
    mem := Memory.setBytes [] (spadBase 0 + (16 + row * (templateOf v).sstr)) input }
theorem setWord_set_ne (v : Vector Word 16) {i : Nat} (w : Word) (h : i ≠ 6) : setWord (v.set 6 w) i = setWord v i := by
  simp [setWord, List.getD, Ne.symm h]
theorem setWord_set_self (v : Vector Word 16) (w : Word) : setWord (v.set 6 w) 6 = w.toNat := by simp [setWord, List.getD]
/-- The barrier word of a template decides its barrier alone (R242). -/
theorem templateOf_set_bar (v : Vector Word 16) (w : Word) :
    templateOf (v.set 6 w) = { templateOf v with ben := bit w.toNat 63, bar := bits w.toNat 0 21 } := by
  simp [templateOf, setWord_set_ne, setWord_set_self]
theorem tellingState_core (body input : List Byte) (entry row : Nat) (v : Vector Word 16) :
    (tellingState body input entry row v).core 0 = { Core.reset with copyq := [tellingCommand v row input.length] } :=
  (State.core_of_cores (t := tellingState body input entry row v) (s := State.reset.mapCore 0 fun k => { k with copyq := [tellingCommand v row input.length] }) rfl 0).trans
    ((State.core_mapCore_self ..).trans rfl)
theorem tellingState_works (body input : List Byte) (entry row : Nat) (v : Vector Word 16) :
    Works (tellingState body input entry row v) 0 0 (tellingCommand v row input.length) :=
  ⟨by rw [tellingState_core]; rfl, rfl, by rw [tellingState_core]; rfl, by rw [tellingState_core]; rfl⟩
theorem Memory.bytes_congr {m n : List Host.Cell} {a k : Nat} (h : ∀ i < k, Memory.get m (a + i) = Memory.get n (a + i)) : Memory.bytes m a k = Memory.bytes n a k := by
  induction k generalizing a with
  | zero => rfl
  | succ k ih =>
    have first : Memory.get m a = Memory.get n a := h 0 (by omega)
    rw [Memory.bytes, Memory.bytes, first, ih fun i hi => by rw [Nat.add_assoc, Nat.add_comm 1]; exact h (i + 1) (by omega)]
/-- Bytes written to memory in its canonical form are read back. -/
theorem Memory.bytes_setBytes {m : List Host.Cell} (h : Memory.wf m = true) (a : Nat) (l : List Byte) : Memory.bytes (Memory.setBytes m a l) a l.length = l := by
  refine List.ext_getElem (Memory.length_bytes ..) fun i hi hl => ?_
  have := Memory.getD_bytes (Memory.setBytes m a l) a hl 0
  rw [Memory.get_setBytes a l h, if_pos (by omega), Nat.add_sub_cancel_left] at this
  simpa [hl, Memory.length_bytes] using this
/-- The barrier of that command, which no byte of its input covers, has never been written. -/
theorem tellingState_barrier (body input : List Byte) (entry row : Nat) (v : Vector Word 16) :
    Memory.bytes (tellingState body input entry row v).mem (spadBase 0) 16 = Memory.bytes [] (spadBase 0) 16 :=
  Memory.bytes_congr fun i hi => Memory.get_setBytes_out Memory.wf_nil (.inl (by omega))
theorem tellingState_current (body input : List Byte) (entry row : Nat) (v : Vector Word 16) (a n : Nat) :
    CurrentFor (tellingState body input entry row v) (tellingCommand v row input.length) 0 a n :=
  ⟨by rw [tellingState_core]; rfl, rfl, fun _ h => absurd h List.not_mem_nil⟩
/-- A row of a wrong length, of a run that meets no fault, changes the second byte of that barrier: the flag stands there (R305, R306). -/
theorem tellingState_told {body input : List Byte} {entry row : Nat} {v : Vector Word 16} {r : Config.HelperRun} (wrong : r.produced ≠ (templateOf v).olen) :
    ((tellingState body input entry row v).helperRow 0 (tellingCommand v row input.length) r).mem ≠ (tellingState body input entry row v).mem := by
  intro same
  have told := State.helperRow_told_mem (s := tellingState body input entry row v) (c := 0) (q := tellingCommand v row input.length) (r := r)
    (a := spadBase 0) (by rw [tellingCommand, templateOf_set_bar]; exact wrong) (by rw [tellingCommand, setWord_set_self]; rfl) (by rw [tellingCommand, setWord_set_self]; rfl)
  rw [same, Memory.read, tellingState_barrier] at told
  have canonical : Memory.wf (tellingState body input entry row v).mem = true := Memory.wf_setBytes _ _ Memory.wf_nil
  have flag := congrArg (Memory.get · (spadBase 0 + 1)) told
  have before := Memory.getD_bytes (tellingState body input entry row v).mem (spadBase 0) (show 1 < 16 by decide) 0
  rw [tellingState_barrier] at before
  simp only [Memory.get_setBytes _ _ canonical, ← before] at flag
  exact absurd flag (by decide)
theorem tellingCommand_template (v : Vector Word 16) (row n : Nat) : templateOf (tellingCommand v row n).set = { templateOf v with ben := true, bar := 0 } :=
  templateOf_set_bar ..
theorem tellingState_turn (body input : List Byte) (entry row : Nat) (v : Vector Word 16) :
    ((tellingState body input entry row v).core 0).helperTurn = some 0 := by rw [tellingState_core]; rfl
theorem tellingState_source (body input : List Byte) (entry row : Nat) (v : Vector Word 16) :
    Memory.bytes (tellingState body input entry row v).mem (spadBase 0 + (16 + row * (templateOf v).sstr)) input.length = input :=
  Memory.bytes_setBytes Memory.wf_nil ..
theorem tellingState_routine (body input : List Byte) (entry row : Nat) (v : Vector Word 16) :
    ((tellingState body input entry row v).die 0).routine (templateOf v).routine = some ⟨(templateOf v).routine, entry, body⟩ :=
  List.find?_cons_of_pos (by simp)
/-- The row of that machine ends with the run of its routine on its input (R254). -/
theorem exec_tellingState {body input : List Byte} {entry row : Nat} {v : Vector Word 16} (hrow : row < (templateOf v).nr) (hssp : (templateOf v).ssp = false)
    (fine : helperFaults (Config.helperRun body entry input (helperRegs (templateOf v) row input.length) 0) = false) :
    exec (.helperRowEnd 0 0) (tellingState body input entry row v) = .next ((tellingState body input entry row v).helperRow 0 (tellingCommand v row input.length)
      (Config.helperRun body entry input (helperRegs (templateOf v) row input.length) 0)) := by
  have htm := tellingCommand_template v row input.length
  have read : (tellingState body input entry row v).cmdFetch 0 (tellingCommand v row input.length) (templateOf (tellingCommand v row input.length).set).ssp false
      (16 + row * (templateOf (tellingCommand v row input.length).set).sstr) input.length = .ok (input, tellingState body input entry row v) := by
    rw [htm, hssp, State.cmdFetch_current (tellingState_current ..), tellingState_source]
  have run : (tellingState body input entry row v).helperRun 0 (tellingCommand v row input.length) input =
      Config.helperRun body entry input (helperRegs (templateOf v) row input.length) 0 := by
    rw [State.helperRun, htm]
    dsimp only
    rw [show ((tellingState body input entry row v).die (0 : CoreId).die).routine (templateOf v).routine = _ from tellingState_routine ..]
    rfl
  have rowEnd := (exec_helper (tellingState_works ..) rfl (tellingState_turn ..) (by rw [htm]; exact hrow) (by rw [htm]; exact Nat.le_refl _) read).1
  rwa [run, fine] at rowEnd
/-- O41 says what a helper's runs leave in the output buffer, of which the model knows nothing. -/
theorem fullRows_of_engineSteps (steps : Obligations.EngineSteps) : FullRows := by
  refine fun body input entry row v hrow hssp fine => Decidable.byContradiction fun wrong => ?_
  obtain ⟨-, -, rows, -⟩ := steps.1 _ 0 0 _ _ (tellingState_works body input entry row v) rfl
  rw [tellingCommand_template] at rows
  obtain ⟨-, quiet⟩ := rows rfl (tellingState_turn ..) hrow input ⟨(templateOf v).routine, entry, body⟩ (helperRegs (templateOf v) row input.length) _ rfl
    (Nat.le_refl _) hssp (tellingState_current ..) (tellingState_source ..).symm (tellingState_routine ..)
    (fun i => getElem_helperRegs (templateOf v) row input.length i) rfl
  have sound : ¬ (_ ∨ _ ∨ _) := fun h => absurd ((helperFaults_iff _).mpr h) (by rw [fine]; decide)
  simp only [not_or, not_exists, not_and, Bool.not_eq_true, Bool.not_eq_false, Nat.not_lt] at sound
  obtain ⟨-, t, step, mem, -⟩ := quiet sound
  rw [exec_tellingState hrow hssp fine, Host.Outcome.next.injEq] at step
  exact tellingState_told wrong (step ▸ mem)

/-- O41 holds exactly when every faultless run of a helper row has the length olen. -/
theorem engineSteps_iff_fullRows : Obligations.EngineSteps ↔ FullRows := ⟨fullRows_of_engineSteps, engineSteps_of_fullRows⟩

end Sys2Proof.Machine
end
